-- ==== Sys2Proof/Syntax.lean ====
section
/-! DEFINITION. The operations of the block: one constructor per row of opcode_table.json (`30_encoding.md` R92, R93).
No operation has an operand in its code (R90, R91). -/

namespace Sys2Proof

/-- The four host commands (format CMD) and the rules of the eleven sequencer states (format STATE). -/
inductive Instr where
  /-- `NOP` (R121) -/
  | cmdNop
  /-- `BEGIN` (R122) -/
  | cmdBegin
  /-- `DECODE` (R123) -/
  | cmdDecode
  /-- `RSVD` (R124) -/
  | cmdRsvd
  /-- `IDLE` (R128) -/
  | stIdle
  /-- `START_LOW` (R141) -/
  | stStartLow
  /-- `RELEASE` (R142) -/
  | stRelease
  /-- `ARMED` (R143) -/
  | stArmed
  /-- `ACK_LOW` (R181) -/
  | stAckLow
  /-- `ACK_HIGH` (R182) -/
  | stAckHigh
  /-- `BIT_LOW` (R183) -/
  | stBitLow
  /-- `BIT_HIGH` (R184) -/
  | stBitHigh
  /-- `CHECKSUM` (R210) -/
  | stChecksum
  /-- `CONVERT` (R212) -/
  | stConvert
  /-- `DONE` (R219) -/
  | stDone
deriving DecidableEq, Repr

end Sys2Proof
end

