-- ==== Sys2Proof/Config.lean ====
section
/-! DEFINITION. What one built instance fixes (`00_scope.md` R5), the input ports of one tick (`10_state.md` R31),
and the free value that stands for what the host and the line environment do when nothing is scheduled. -/

namespace Sys2Proof

/-- The four timing parameters of R5, all counted in ticks. Their constraints (R6) are `Config.wf`. -/
structure Config where
  /-- `T_START_LOW`: ticks the line is driven low. -/
  tStartLow : Nat
  /-- `T_RELEASE`: ticks the line is driven high after that. -/
  tRelease : Nat
  /-- `T_TIMEOUT`: timeout of every measurement, and the sentinel. -/
  tTimeout : Nat
  /-- `T_THRESH`: a high pulse strictly longer than this is a 1. -/
  tThresh : Nat
deriving DecidableEq, Repr

/-- The reference configuration (R5, column "default"). -/
def Config.default : Config :=
  { tStartLow := 18000, tRelease := 30, tTimeout := 1000, tThresh := 50 }

/-- The input ports sampled in one tick (R31). `clk_i` is the tick itself. -/
structure Inputs where
  /-- `rst_i`, synchronous, active high. -/
  rst : Bool
  /-- `cmd_valid_i`. -/
  cmdValid : Bool
  /-- `cmd_op_i[1:0]`; ignored when `cmdValid` is false. -/
  cmdOp : BitVec 2
  /-- `line_i`: true is level 1. -/
  line : Bool
deriving DecidableEq, Repr, Inhabited

/-- FREE VALUE (U3, U4, U6 of `93_implementation_defined.md`: "any value"). What the host and the line environment
present in tick `n` when the state schedules nothing for it. No body: nothing can be proved of it (log 3). -/
opaque Config.freeInputs : Nat → Inputs

end Sys2Proof
end

