-- ==== Sys2Proof/WellFormed.lean ====
section
/-! DEFINITION. Well-formedness: of an instruction (no operand, so every term is) and of a configuration
(`00_scope.md` R6). -/

namespace Sys2Proof

/-- A command has no operands and a state's operands are registers, never bits of the code (R90, R91): there is
nothing to check in an instruction, one line per constructor so that a new one cannot slip past. -/
def Instr.wf : Instr → Bool
  | .cmdNop | .cmdBegin | .cmdDecode | .cmdRsvd => true
  | .stIdle | .stArmed | .stDone => true
  | .stStartLow | .stRelease => true
  | .stAckLow | .stAckHigh | .stBitLow | .stBitHigh => true
  | .stChecksum | .stConvert => true

/-- The four constraints of R6. -/
def Config.wf (c : Config) : Bool :=
  decide (1 ≤ c.tStartLow) && decide (1 ≤ c.tRelease) && decide (1 ≤ c.tThresh) &&
    decide (c.tThresh + 2 ≤ c.tTimeout)

/-- The least number of bits that holds `n` (at least one). -/
def bitsToHold (n : Nat) : Nat := Nat.log2 n + 1

/-- Width of `HCNT`: the least number of bits that holds `max(T_START_LOW, T_RELEASE) - 1` (`10_state.md` R24). -/
def Config.hcntBits (c : Config) : Nat := bitsToHold (max c.tStartLow c.tRelease - 1)

/-- Width of `PCNT`: the least number of bits that holds `T_TIMEOUT` (`10_state.md` R25). -/
def Config.pcntBits (c : Config) : Nat := bitsToHold c.tTimeout

end Sys2Proof
end

