-- ==== Sys2Proof/Word.lean ====
section
/-! DEFINITION. The words of the block: bytes of the frame buffer, and the two code formats of `30_encoding.md` R90. -/

namespace Sys2Proof

/-- A byte of the frame buffer (`20_memory.md` R61). -/
abbrev Byte := BitVec 8

/-- A word that selects an operation, with the carrier it stands on (R90): a command code is read from the
port `cmd_op_i`, a state code from the register `STATE`. The two formats share numbers, not carriers. -/
inductive Code where
  | cmd   (op : BitVec 2)
  | state (st : BitVec 4)
deriving DecidableEq, Repr

end Sys2Proof
end

