-- ==== Sys2Proof/Decode.lean ====
section
/-! DEFINITION. Decoding of the two code formats of `30_encoding.md` R90, total, rejecting by name; then the encoder,
and the host's numbering of a table row. -/

namespace Sys2Proof

/-- Why a code is no operation. -/
inductive DecodeError where
  /-- A `STATE` code 11 to 15: never produced, no representation in the model (R93, R99 (c)). -/
  | unreachableState (code : BitVec 4)
deriving DecidableEq, Repr

/-- Command codes (R92). All four are named; `11` is reserved and still decodes, to the command that is always rejected. -/
def decodeCmd (op : BitVec 2) : Instr :=
  match op.toNat with
  | 0 => .cmdNop
  | 1 => .cmdBegin
  | 2 => .cmdDecode
  | _ => .cmdRsvd

/-- State codes (R93). -/
def decodeState (st : BitVec 4) : Except DecodeError Instr :=
  match st.toNat with
  | 0 => .ok .stIdle
  | 1 => .ok .stStartLow
  | 2 => .ok .stRelease
  | 3 => .ok .stArmed
  | 4 => .ok .stAckLow
  | 5 => .ok .stAckHigh
  | 6 => .ok .stBitLow
  | 7 => .ok .stBitHigh
  | 8 => .ok .stChecksum
  | 9 => .ok .stConvert
  | 10 => .ok .stDone
  | _ => .error (.unreachableState st)

/-- The decoder: total on every code of both carriers. -/
def decode : Code → Except DecodeError Instr
  | .cmd op => .ok (decodeCmd op)
  | .state st => decodeState st

/-- The encoder, from the same two tables. -/
def encode : Instr → Code
  | .cmdNop => .cmd 0b00#2
  | .cmdBegin => .cmd 0b01#2
  | .cmdDecode => .cmd 0b10#2
  | .cmdRsvd => .cmd 0b11#2
  | .stIdle => .state 0b0000#4
  | .stStartLow => .state 0b0001#4
  | .stRelease => .state 0b0010#4
  | .stArmed => .state 0b0011#4
  | .stAckLow => .state 0b0100#4
  | .stAckHigh => .state 0b0101#4
  | .stBitLow => .state 0b0110#4
  | .stBitHigh => .state 0b0111#4
  | .stChecksum => .state 0b1000#4
  | .stConvert => .state 0b1001#4
  | .stDone => .state 0b1010#4

/-- The 3-bit command word `cmd_valid_i, cmd_op_i[1:0]` of R91: none presented when the top bit is 0. -/
def decodeCommandWord (w : BitVec 3) : Option Instr :=
  if w.getLsbD 2 then some (decodeCmd (w.setWidth 2)) else none

/-- Which carrier a row of opcode_table.json stands on, from the row's length and its bits. A row of 2 bits is a CMD
row, a row of 4 bits a STATE row. In whole bytes both are 8 bits and the numbers 0 to 3 name a row of each format:
there the number is read as a command code, and 4 to 15 as state codes. DESIGN CHOICE (log 5): the spec keeps the
formats apart by carrier, not by number. -/
def tableCode (nbits w : Nat) : Option Code :=
  if nbits ≤ 2 then
    if w < 4 then some (.cmd (BitVec.ofNat 2 w)) else none
  else if nbits ≤ 4 then
    if w < 16 then some (.state (BitVec.ofNat 4 w)) else none
  else if w < 4 then some (.cmd (BitVec.ofNat 2 w))
  else if w < 16 then some (.state (BitVec.ofNat 4 w))
  else none

/-- What the decoder reads from a table row's bits. -/
def decodeTableWord (nbits w : Nat) : Option Instr :=
  match tableCode nbits w with
  | none => none
  | some c =>
    match decode c with
    | .ok i => some i
    | .error _ => none

end Sys2Proof
end

