-- ==== Sys2Proof/Machine/State.lean ====
section
/-! DEFINITION. The state vector of `10_state.md` R20 as plain data, the model's own fields beside it, and the reasons
a step can stop. -/

namespace Sys2Proof.Machine

/-- The register `STATE`: exactly eleven values (R22, R99 (c)). -/
inductive SeqState where
  | idle | startLow | release | armed | ackLow | ackHigh | bitLow | bitHigh | checksum | convert | done
deriving DecidableEq, Repr

/-- The register `ERR`: no failure, or one of the five failure kinds (R28, R94, R230). -/
inductive Err where
  | none | noResponse | lowPulseTimeout | highPulseTimeout | checksumInvalid | outOfRange
deriving DecidableEq, Repr

/-- The frame buffer `F[0]` to `F[4]` (R27; `20_memory.md` R61). -/
structure Frame where
  f0 : Byte
  f1 : Byte
  f2 : Byte
  f3 : Byte
  f4 : Byte
deriving DecidableEq, Repr

/-- The whole state. The first six fields are the spec's (R20: "Nothing else is state"); the last three are the
model's own (log 1, log 2, log 3). -/
structure State where
  /-- `STATE` (R22) -/
  seq : SeqState
  /-- `HCNT` (R24) -/
  hcnt : Nat
  /-- `PCNT` (R25) -/
  pcnt : Nat
  /-- `IDX` (R26) -/
  idx : Nat
  /-- `F[0..4]` (R27) -/
  frame : Frame
  /-- `ERR` (R28) -/
  err : Err
  /-- the configuration of this instance (`00_scope.md` R5), changed by nothing (R36) -/
  cfg : Config
  /-- inputs of the coming ticks, the present tick's first -/
  feed : List Inputs
  /-- argument of the free inputs, advanced once a tick -/
  tick : Nat
deriving DecidableEq, Repr

/-- A step never faults: "The block's step never faults and is never stuck" (`00_scope.md` R12). So this type has no
constructor; nothing raises a fault (log 12). -/
inductive Fault where
deriving DecidableEq, Repr

/-- Why a step is refused. -/
inductive Refusal where
  /-- Raised by an arm of exec whose instruction has no meaning yet; no arm is one. Safe. -/
  | notModelled (mnemonic : String)
  /-- Raised by `step` when the configuration does not meet `00_scope.md` R6 ("or the model refuses the
  configuration"). Safe: nothing is claimed of such an instance (log 9). -/
  | configuration
  /-- Raised by `step` on a `STATE` code 11 to 15 (R99 (c), U10). Safe, and never raised: the type of `STATE` has
  eleven values (log 10). -/
  | unreachableState (code : BitVec 4)
deriving DecidableEq, Repr

/-- The state right after reset (R35), of an instance with the default parameters, with nothing scheduled. -/
def State.reset : State where
  seq := .idle
  hcnt := 0
  pcnt := 0
  idx := 0
  frame := { f0 := 0, f1 := 0, f2 := 0, f3 := 0, f4 := 0 }
  err := .none
  cfg := Config.default
  feed := []
  tick := 0

end Sys2Proof.Machine
end

