-- ==== Sys2Proof/Machine/Operands.lean ====
section
/-! DEFINITION. Operand forms: the inputs of a tick, the code that selects the tick's operation, and the ways the frame
buffer is read (by byte, by arrival index, as one word, as humidity and as temperature). -/

namespace Sys2Proof.Machine

/-- The inputs sampled `j` ticks from now: what is scheduled, and past the schedule the free value (log 2, log 3). -/
def State.inputAt (s : State) (j : Nat) : Inputs :=
  (s.feed[j]?).getD (Config.freeInputs (s.tick + j))

/-- The inputs sampled in this tick (`10_state.md` R21, R31). -/
def State.inputs (s : State) : Inputs := s.inputAt 0

/-- `line`: the level sampled on `line_i` in this tick (`20_memory.md` R66). -/
def State.line (s : State) : Bool := s.inputs.line

/-- The command code presented in this tick, if one is (`30_encoding.md` R91). -/
def State.presented (s : State) : Option (BitVec 2) :=
  if s.inputs.cmdValid then some s.inputs.cmdOp else none

/-- The code of a state (`30_encoding.md` R93). -/
def SeqState.code : SeqState → BitVec 4
  | .idle => 0b0000#4
  | .startLow => 0b0001#4
  | .release => 0b0010#4
  | .armed => 0b0011#4
  | .ackLow => 0b0100#4
  | .ackHigh => 0b0101#4
  | .bitLow => 0b0110#4
  | .bitHigh => 0b0111#4
  | .checksum => 0b1000#4
  | .convert => 0b1001#4
  | .done => 0b1010#4

/-- The state that a STATE code names (R93), for loading the register. -/
def SeqState.ofCode (c : BitVec 4) : Option SeqState :=
  match c.toNat with
  | 0 => some .idle
  | 1 => some .startLow
  | 2 => some .release
  | 3 => some .armed
  | 4 => some .ackLow
  | 5 => some .ackHigh
  | 6 => some .bitLow
  | 7 => some .bitHigh
  | 8 => some .checksum
  | 9 => some .convert
  | 10 => some .done
  | _ => none

/-- The code that selects the tick's operation: a presented command's, else the one in `STATE` (R90). In a tick with a
command both codes are there; every command's meaning includes the state's own step where R120 asks for it, so either
choice gives the same next state (log 6). -/
def fetchCode (s : State) : Code :=
  match s.presented with
  | some op => .cmd op
  | none => .state s.seq.code

/-- `F[i]` (`00_scope.md` R11). There is no byte at an index above 4; reading one gives 0 and no rule does (R64). -/
def Frame.byte (f : Frame) (i : Nat) : Byte :=
  match i with
  | 0 => f.f0
  | 1 => f.f1
  | 2 => f.f2
  | 3 => f.f3
  | 4 => f.f4
  | _ => 0

/-- The frame bit with arrival index `idx`: bit `7 - (idx mod 8)` of `F[idx div 8]` (`20_memory.md` R62). -/
def Frame.bit (f : Frame) (idx : Nat) : Bool := (f.byte (idx / 8)).getLsbD (7 - idx % 8)

/-- The 40-bit word of the five bytes, `F[0]` on top (`30_encoding.md` R95). -/
def Frame.word (f : Frame) : BitVec 40 := f.f0 ++ f.f1 ++ f.f2 ++ f.f3 ++ f.f4

/-- `hum_raw(F)`: tenths of a percent, unsigned (`44_checksum_convert.md` R213). -/
def Frame.humRaw (f : Frame) : Nat := f.f0.toNat * 256 + f.f1.toNat

/-- `tmag`: the temperature's magnitude in tenths of a degree, 15 bits (R214). -/
def Frame.tmag (f : Frame) : Nat := (f.f2 &&& 0x7F#8).toNat * 256 + f.f3.toNat

/-- The temperature's sign flag, `F[2][7]` (R214). -/
def Frame.tsign (f : Frame) : Bool := f.f2.getLsbD 7

/-- `temp_val(F)`: the signed temperature in tenths of a degree (R214). -/
def Frame.tempVal (f : Frame) : Int := if f.tsign then -(f.tmag : Int) else (f.tmag : Int)

/-- `low8(F[0] + F[1] + F[2] + F[3])`: the sum is exact, then taken modulo 256 (R211). -/
def Frame.sum8 (f : Frame) : Nat := (f.f0.toNat + f.f1.toNat + f.f2.toNat + f.f3.toNat) % 256

end Sys2Proof.Machine
end

