-- ==== Sys2Proof/Machine/Flags.lean ====
section
/-! DEFINITION. The block's predicates: which states are busy, holding or driving; the command table; the tests of the
decoder. There are no arithmetic condition codes (`10_state.md` R34). -/

namespace Sys2Proof.Machine

/-- A holding state: IDLE, ARMED, DONE (`30_encoding.md` R93, column "kind"). -/
def SeqState.holding : SeqState → Bool
  | .idle | .armed | .done => true
  | .startLow | .release | .ackLow | .ackHigh | .bitLow | .bitHigh | .checksum | .convert => false

/-- A busy state: the eight others (R93; `10_state.md` R32, `busy_o`). -/
def SeqState.busy : SeqState → Bool
  | .startLow | .release | .ackLow | .ackHigh | .bitLow | .bitHigh | .checksum | .convert => true
  | .idle | .armed | .done => false

/-- A measurement state (R93, column "kind"). -/
def SeqState.measuring : SeqState → Bool
  | .ackLow | .ackHigh | .bitLow | .bitHigh => true
  | .idle | .startLow | .release | .armed | .checksum | .convert | .done => false

/-- The pin is driven (`41_handshake.md` R144, `line_oe_o`). -/
def SeqState.drives : SeqState → Bool
  | .startLow | .release => true
  | .idle | .armed | .ackLow | .ackHigh | .bitLow | .bitHigh | .checksum | .convert | .done => false

/-- The level on `line_o` (R144): 0 in START_LOW, else 1. -/
def SeqState.lineOut : SeqState → Bool
  | .startLow => false
  | .idle | .release | .armed | .ackLow | .ackHigh | .bitLow | .bitHigh | .checksum | .convert | .done => true

/-- The table of `40_commands.md` R120: is this command code accepted in this state? -/
def accepts (st : SeqState) (op : BitVec 2) : Bool :=
  match op.toNat with
  | 0 => true
  | 1 => st.holding
  | 2 => decide (st = .armed)
  | _ => false

/-- The code of a failure kind on `err_o` (`30_encoding.md` R94). -/
def Err.code : Err → BitVec 3
  | .none => 0b000#3
  | .noResponse => 0b001#3
  | .lowPulseTimeout => 0b010#3
  | .highPulseTimeout => 0b011#3
  | .checksumInvalid => 0b100#3
  | .outOfRange => 0b101#3

/-- "Timed out": the count reaches the timeout with this sample (`42_pulse_timer.md` R162; `+ 1` without truncation,
`44_checksum_convert.md` R221 (c)). -/
def timedOut (s : State) : Bool := decide (s.pcnt + 1 = s.cfg.tTimeout)

/-- The bit decision: unsigned and strict (`43_frame_decoder.md` R185). -/
def longPulse (c : Config) (m : Nat) : Bool := decide (c.tThresh < m)

/-- The checksum test (`44_checksum_convert.md` R210, R211; `30_encoding.md` R98). -/
def Frame.checksumMatches (f : Frame) : Bool := decide (f.sum8 = f.f4.toNat)

/-- The humidity bound is broken: `hum_raw > 1000` (R217). -/
def Frame.humTooHigh (f : Frame) : Bool := decide (1000 < f.humRaw)

/-- `ok_o`: DONE without a failure (`10_state.md` R32). -/
def State.ok (s : State) : Bool := decide (s.seq = .done) && decide (s.err = .none)

end Sys2Proof.Machine
end

