-- ==== Sys2Proof/Machine/Ops.lean ====
section
/-! DEFINITION. The shared operations: writing the frame buffer, entering a failure and starting a transaction (the
return from one), the handshake phase, the measurement, what a state does by itself, commands, reset, and the passing
of a tick. All assignments of a tick read start-of-tick values (`00_scope.md` R11). -/

namespace Sys2Proof.Machine

/-! ### The frame buffer -/

/-- `FrameClear()` (`00_scope.md` R11). -/
def frameClear : Frame := { f0 := 0, f1 := 0, f2 := 0, f3 := 0, f4 := 0 }

/-- `F[i] <- b`. There is no byte above index 4: nothing is written there (log 8). -/
def Frame.setByte (f : Frame) (i : Nat) (b : Byte) : Frame :=
  match i with
  | 0 => { f with f0 := b }
  | 1 => { f with f1 := b }
  | 2 => { f with f2 := b }
  | 3 => { f with f3 := b }
  | 4 => { f with f4 := b }
  | _ => f

/-- `FrameSetBit(idx)`: an OR of one bit into one byte, never a store of 0 (R11; `20_memory.md` R65). -/
def frameSetBit (idx : Nat) (f : Frame) : Frame :=
  f.setByte (idx / 8) (f.byte (idx / 8) ||| (1#8 <<< (7 - idx % 8)))

/-! ### Failure entry and return -/

/-- `fail K` (`60_exceptions.md` R236): the kind into `ERR`, `STATE` to DONE, nothing else. -/
def failWith (k : Err) (s : State) : State := { s with err := k, seq := .done }

/-- What an accepted BEGIN or DECODE writes (`40_commands.md` R122, R123): the new state, everything else cleared.
BEGIN's use of it in DONE is the return from a failure (`60_exceptions.md` R241). -/
def startIn (st : SeqState) (s : State) : State :=
  { s with seq := st, hcnt := 0, pcnt := 0, idx := 0, frame := frameClear, err := .none }

/-! ### Handshake -/

/-- One tick of a handshake phase that lasts `limit` ticks (`41_handshake.md` R141, R142). -/
def handshakePhase (limit : Nat) (after : SeqState) (s : State) : State :=
  if s.hcnt + 1 = limit then { s with seq := after, hcnt := 0 } else { s with hcnt := s.hcnt + 1 }

/-! ### Measurement -/

/-- One tick of a measurement (`42_pulse_timer.md` R160): go on (R161), time out with failure `k` (R162), or the
end of the pulse (R163), where `atEdge` says what the state does. -/
def measureTick (target : Bool) (k : Err) (atEdge : State → State) (s : State) : State :=
  if s.line = target then
    if timedOut s then failWith k { s with pcnt := s.cfg.tTimeout } else { s with pcnt := s.pcnt + 1 }
  else atEdge s

/-- The sample that ends one measurement is the first of the next (R164). -/
def chainTo (st : SeqState) (s : State) : State := { s with seq := st, pcnt := 1 }

/-- The frame after the bit decision at `IDX` (`43_frame_decoder.md` R185, R186). -/
def decidedFrame (s : State) : Frame :=
  if longPulse s.cfg s.pcnt then frameSetBit s.idx s.frame else s.frame

/-- The end of a data pulse (R184): decide and place the bit, then the next bit or the checksum. -/
def storeBit (s : State) : State :=
  if s.idx = 39 then { s with frame := decidedFrame s, seq := .checksum, pcnt := 0 }
  else { s with frame := decidedFrame s, seq := .bitLow, pcnt := 1, idx := s.idx + 1 }

/-! ### Validation -/

/-- The step of CHECKSUM (`44_checksum_convert.md` R210). -/
def checkSum (s : State) : State :=
  if s.frame.checksumMatches then { s with seq := .convert } else failWith .checksumInvalid s

/-- The step of CONVERT (R212). -/
def checkRange (s : State) : State :=
  if s.frame.humTooHigh then failWith .outOfRange s else { s with seq := .done }

/-! ### What a state does by itself, and commands -/

/-- The state's own step, taken whatever the command inputs are (`40_commands.md` R120); a holding state has none and
keeps every register. -/
def ownStep (st : SeqState) (s : State) : State :=
  match st with
  | .idle => s
  | .startLow => handshakePhase s.cfg.tStartLow .release s
  | .release => handshakePhase s.cfg.tRelease .armed s
  | .armed => s
  | .ackLow => measureTick false .noResponse (chainTo .ackHigh) s
  | .ackHigh => measureTick true .noResponse (chainTo .bitLow) s
  | .bitLow => measureTick false .lowPulseTimeout (chainTo .bitHigh) s
  | .bitHigh => measureTick true .highPulseTimeout storeBit s
  | .checksum => checkSum s
  | .convert => checkRange s
  | .done => s

/-- What a command code presented in a holding state does (R120 to R124): its effect if the table accepts it, else
nothing. -/
def commandEffect (st : SeqState) (op : BitVec 2) (s : State) : State :=
  if accepts st op then
    match op.toNat with
    | 1 => startIn .startLow s
    | 2 => startIn .ackLow s
    | _ => s
  else s

/-- The rule of a holding state (R128, `41_handshake.md` R143, `44_checksum_convert.md` R219): the presented command's
effect, else every register keeps its value. -/
def holdingStep (st : SeqState) (s : State) : State :=
  match s.presented with
  | some op => commandEffect st op s
  | none => s

/-! ### Reset and the passing of a tick -/

/-- A tick with `rst_i = 1` (`70_reset_and_hazards.md` R260): every register as in `10_state.md` R35. The configuration
is not touched (R36), nor is what the environment will present. -/
def resetRegisters (s : State) : State :=
  { s with seq := .idle, hcnt := 0, pcnt := 0, idx := 0, frame := frameClear, err := .none }

/-- The tick passes for the host and the environment: the next inputs come up. No register of the block changes. -/
def State.advance (s : State) : State := { s with feed := s.feed.tail, tick := s.tick + 1 }

/-! ### Placing an operation where the next step finds it -/

/-- The inputs of a tick whose command inputs are given: no reset, and the level already scheduled for the tick, else
level 0 (log 4). -/
def loadedInputs (s : State) (valid : Bool) (op : BitVec 2) : Inputs :=
  { rst := false, cmdValid := valid, cmdOp := op
    line := match s.feed with
      | [] => false
      | i :: _ => i.line }

/-- Replaces the inputs of the present tick. -/
def State.withInputs (s : State) (i : Inputs) : State := { s with feed := i :: s.feed.tail }

/-- Places a code on its carrier: a command code on the port, a state code in `STATE` with no command presented. A state
code that names no state is not placed. -/
def placeCode (c : Code) (s : State) : State :=
  match c with
  | .cmd op => s.withInputs (loadedInputs s true op)
  | .state st =>
    match SeqState.ofCode st with
    | some q => { s.withInputs (loadedInputs s false 0) with seq := q }
    | none => s

end Sys2Proof.Machine
end

