-- ==== Sys2Proof/Machine/ChecksumConvert.lean ====
section
/-! DEFINITION. CHECKSUM, CONVERT and DONE (`44_checksum_convert.md`). -/

namespace Sys2Proof.Machine

/-- `CHECKSUM` (R210): one tick; match goes to CONVERT, mismatch fails with ChecksumInvalid. -/
def execStChecksum (s : State) : Host.Outcome State Fault Refusal := .next (checkSum s)

/-- `CONVERT` (R212): one tick; the humidity bound, then DONE. -/
def execStConvert (s : State) : Host.Outcome State Fault Refusal := .next (checkRange s)

/-- `DONE` (R219): a presented command acts by R120, else every register keeps its value. -/
def execStDone (s : State) : Host.Outcome State Fault Refusal := .next (holdingStep .done s)

end Sys2Proof.Machine
end

