-- ==== Sys2Proof/Machine/Commands.lean ====
section
/-! DEFINITION. The host commands and the holding state IDLE (`40_commands.md`). -/

namespace Sys2Proof.Machine

/-- `NOP` (R121): accepted in every state; in a busy state the state's own step is taken, in a holding state every
register keeps its value. -/
def execCmdNop (s : State) : Host.Outcome State Fault Refusal := .next (ownStep s.seq s)

/-- `BEGIN` (R122): accepted in IDLE, ARMED and DONE; rejected in a busy state, whose own step is taken (R124). -/
def execCmdBegin (s : State) : Host.Outcome State Fault Refusal :=
  .next (if s.seq.holding then startIn .startLow s else ownStep s.seq s)

/-- `DECODE` (R123): accepted in ARMED only; elsewhere rejected, with the state's own step taken (R124). -/
def execCmdDecode (s : State) : Host.Outcome State Fault Refusal :=
  .next (if s.seq = .armed then startIn .ackLow s else ownStep s.seq s)

/-- `RSVD` (R124): rejected in every state; the state's own step is taken as if no command were there. -/
def execCmdRsvd (s : State) : Host.Outcome State Fault Refusal := .next (ownStep s.seq s)

/-- `IDLE` (R128): a presented command acts by R120, else every register keeps its value. -/
def execStIdle (s : State) : Host.Outcome State Fault Refusal := .next (holdingStep .idle s)

end Sys2Proof.Machine
end

