-- ==== Sys2Proof/Machine/FrameDecoder.lean ====
section
/-! DEFINITION. The four measurement states (`43_frame_decoder.md`), over the primitive of `42_pulse_timer.md`. -/

namespace Sys2Proof.Machine

/-- `ACK_LOW` (R181): target 0, NoResponse, then ACK_HIGH. -/
def execStAckLow (s : State) : Host.Outcome State Fault Refusal :=
  .next (measureTick false .noResponse (chainTo .ackHigh) s)

/-- `ACK_HIGH` (R182): target 1, NoResponse, then BIT_LOW. -/
def execStAckHigh (s : State) : Host.Outcome State Fault Refusal :=
  .next (measureTick true .noResponse (chainTo .bitLow) s)

/-- `BIT_LOW` (R183): target 0, LowPulseTimeout, then BIT_HIGH. -/
def execStBitLow (s : State) : Host.Outcome State Fault Refusal :=
  .next (measureTick false .lowPulseTimeout (chainTo .bitHigh) s)

/-- `BIT_HIGH` (R184): target 1, HighPulseTimeout, then the bit decision. -/
def execStBitHigh (s : State) : Host.Outcome State Fault Refusal :=
  .next (measureTick true .highPulseTimeout storeBit s)

end Sys2Proof.Machine
end

