-- ==== Sys2Proof/Machine/Handshake.lean ====
section
/-! DEFINITION. The handshake states (`41_handshake.md`). -/

namespace Sys2Proof.Machine

/-- `START_LOW` (R141): `T_START_LOW` ticks, then RELEASE. -/
def execStStartLow (s : State) : Host.Outcome State Fault Refusal :=
  .next (handshakePhase s.cfg.tStartLow .release s)

/-- `RELEASE` (R142): `T_RELEASE` ticks, then ARMED. -/
def execStRelease (s : State) : Host.Outcome State Fault Refusal :=
  .next (handshakePhase s.cfg.tRelease .armed s)

/-- `ARMED` (R143): a presented command acts by R120, else every register keeps its value. -/
def execStArmed (s : State) : Host.Outcome State Fault Refusal := .next (holdingStep .armed s)

end Sys2Proof.Machine
end

