-- ==== Sys2Proof/Machine/Dispatch.lean ====
section
/-! DEFINITION. One arm per operation (`30_encoding.md` R92, R93). -/

namespace Sys2Proof.Machine

def exec (i : Instr) (s : State) : Host.Outcome State Fault Refusal :=
  match i with
  | .cmdNop => Sys2Proof.Machine.execCmdNop s
  | .cmdBegin => Sys2Proof.Machine.execCmdBegin s
  | .cmdDecode => Sys2Proof.Machine.execCmdDecode s
  | .cmdRsvd => Sys2Proof.Machine.execCmdRsvd s
  | .stIdle => Sys2Proof.Machine.execStIdle s
  | .stStartLow => Sys2Proof.Machine.execStStartLow s
  | .stRelease => Sys2Proof.Machine.execStRelease s
  | .stArmed => Sys2Proof.Machine.execStArmed s
  | .stAckLow => Sys2Proof.Machine.execStAckLow s
  | .stAckHigh => Sys2Proof.Machine.execStAckHigh s
  | .stBitLow => Sys2Proof.Machine.execStBitLow s
  | .stBitHigh => Sys2Proof.Machine.execStBitHigh s
  | .stChecksum => Sys2Proof.Machine.execStChecksum s
  | .stConvert => Sys2Proof.Machine.execStConvert s
  | .stDone => Sys2Proof.Machine.execStDone s

end Sys2Proof.Machine
end

