-- ==== Sys2Proof/Machine/Step.lean ====
section
/-! DEFINITION. One tick of the block (`10_state.md` R21; precedence `40_commands.md` R129). -/

namespace Sys2Proof.Machine

/-- One tick: a configuration outside `00_scope.md` R6 is refused; then `rst_i`; then the operation the tick's code
selects. After it the tick passes for the environment. -/
def step (s : State) : Host.Outcome State Fault Refusal :=
  if s.cfg.wf then
    if s.inputs.rst then .next (resetRegisters s).advance
    else
      match decode (fetchCode s) with
      | .error (.unreachableState c) => .refused (.unreachableState c)
      | .ok i =>
        match exec i s with
        | .next t => .next t.advance
        | .fault f => .fault f
        | .refused r => .refused r
  else .refused .configuration

/-- `s` with a table row's bits placed where the next step takes its operation from (log 4): a command code on the
command port of this tick, a state code in `STATE`. -/
def State.withFetchWord (s : State) (nbits w : Nat) : State :=
  match tableCode nbits w with
  | some c => placeCode c s
  | none => s

end Sys2Proof.Machine
end

