-- ==== Sys2Proof/Machine/Script.lean ====
section
/-! DEFINITION. The script notation of `30_encoding.md` R101 and its pseudo-instructions (R102): a host that chooses each
tick's command inputs from a list of items and the flags it sees, and a line given as runs. -/

namespace Sys2Proof.Machine

/-- One item of the command track (R101). -/
inductive ScriptItem where
  /-- `NOP`, `BEGIN`, `DECODE`, `RSVD`: one tick with the command presented. -/
  | command (op : BitVec 2)
  /-- `IDLE n`: `n` ticks with nothing presented. -/
  | idle (n : Nat)
  /-- `op*`: the command presented up to and including the first tick in which it is accepted. -/
  | star (op : BitVec 2)
  /-- `UNTIL armed`: nothing presented, up to but not including the first tick with `armed_o = 1`. -/
  | untilArmed
  /-- `UNTIL done`: the same for `done_o`. -/
  | untilDone
  /-- `RESET`: one tick with `rst_i = 1`. -/
  | reset
deriving DecidableEq, Repr

/-- A line track (R101): runs of one level, then the level held for ever after. -/
structure LineTrack where
  runs : List (Bool × Nat)
  rest : Bool
deriving DecidableEq, Repr

/-- A script in progress: items to come, the line now running, and the tracks that wait for their `AFTER DECODE`. -/
structure Script where
  items : List ScriptItem
  now : LineTrack
  tracks : List LineTrack
deriving DecidableEq, Repr

/-- Inputs with nothing presented, at a given level. -/
def quietInputs (line : Bool) : Inputs := { rst := false, cmdValid := false, cmdOp := 0, line := line }

/-- Inputs with a command presented, at a given level. -/
def commandInputs (op : BitVec 2) (line : Bool) : Inputs := { rst := false, cmdValid := true, cmdOp := op, line := line }

/-- The next level of a run list, and what is left of it. -/
def nextSample (rest : Bool) : List (Bool × Nat) → Bool × List (Bool × Nat)
  | [] => (rest, [])
  | (_, 0) :: more => nextSample rest more
  | (l, n + 1) :: more => (l, (l, n) :: more)

/-- The inputs a command track gives for one tick in state `q`, at a given level, and the items left. R101 says nothing of
the ticks after the last item: there nothing is presented and no reset is given, for ever. DESIGN CHOICE (log 18). The
inputs that R101 leaves unnamed within an item are log 19. -/
def trackInputs (q : SeqState) (line : Bool) : List ScriptItem → Inputs × List ScriptItem
  | [] => (quietInputs line, [])
  | .command op :: more => (commandInputs op line, more)
  | .idle 0 :: more => trackInputs q line more
  | .idle (n + 1) :: more => (quietInputs line, .idle n :: more)
  | .star op :: more => (commandInputs op line, if accepts q op then more else .star op :: more)
  | .untilArmed :: more => if q = .armed then trackInputs q line more else (quietInputs line, .untilArmed :: more)
  | .untilDone :: more => if q = .done then trackInputs q line more else (quietInputs line, .untilDone :: more)
  | .reset :: more => ({ quietInputs line with rst := true }, more)

/-- `AFTER DECODE`: in the tick that accepts DECODE the next waiting track takes over from the coming tick on. With no
track waiting the running one goes on: DESIGN CHOICE (log 20). -/
def Script.anchor (c : Script) (q : SeqState) (i : Inputs) : Script :=
  if i.rst = false ∧ i.cmdValid = true ∧ i.cmdOp = 0b10#2 ∧ accepts q i.cmdOp = true then
    match c.tracks with
    | [] => c
    | t :: more => { c with now := t, tracks := more }
  else c

/-- One tick under a script: the tick's inputs, and the script after it. The level before the first anchor is the one
`now` gives; the block does not use it (R101). -/
def Script.tick (c : Script) (s : State) : Inputs × Script :=
  let sample := nextSample c.now.rest c.now.runs
  let chosen := trackInputs s.seq sample.1 c.items
  (chosen.1, Script.anchor { c with items := chosen.2, now := { c.now with runs := sample.2 } } s.seq chosen.1)

/-- `n` ticks of the block under a script. -/
def runScript : Nat → Script → State → Host.Outcome State Fault Refusal
  | 0, _, s => .next s
  | n + 1, c, s =>
    match step { s with feed := [(c.tick s).1] } with
    | .next t => runScript n (c.tick s).2 t
    | .fault f => .fault f
    | .refused r => .refused r

/-- `READ` (R102): `BEGIN*` then `DECODE*`. -/
def readItems : List ScriptItem := [.star 0b01#2, .star 0b10#2]

/-- `POLL` (R102): `UNTIL done`. -/
def pollItems : List ScriptItem := [.untilDone]

end Sys2Proof.Machine
end

