-- ==== Sys2Proof/Machine/Ports.lean ====
section
/-! DEFINITION. The output ports of a tick (`10_state.md` R32): functions of the state, and for the two command outputs
also of the tick's inputs. No register holds any of them. -/

namespace Sys2Proof.Machine

/-- The twelve output ports (R32). -/
structure Outputs where
  lineO : Bool
  lineOeO : Bool
  cmdAcceptO : Bool
  cmdRejectO : Bool
  busyO : Bool
  armedO : Bool
  doneO : Bool
  okO : Bool
  errO : BitVec 3
  frameO : BitVec 40
  humO : BitVec 16
  tempO : BitVec 16
deriving DecidableEq, Repr

/-- `cmd_accept_o` (`40_commands.md` R125): presented, no reset, and the table says accept. -/
def cmdAccept (s : State) : Bool := !s.inputs.rst && s.inputs.cmdValid && accepts s.seq s.inputs.cmdOp

/-- `cmd_reject_o` (R125): presented, no reset, and the table says reject. -/
def cmdReject (s : State) : Bool := !s.inputs.rst && s.inputs.cmdValid && !accepts s.seq s.inputs.cmdOp

/-- `temp_o` as 16 bits in two's complement (`44_checksum_convert.md` R214). -/
def Frame.tempPort (f : Frame) : BitVec 16 := BitVec.ofInt 16 f.tempVal

/-- The data gate (R33): the value when `ok_o` is 1, else all zero. -/
def gated {n : Nat} (s : State) (v : BitVec n) : BitVec n := if s.ok then v else 0

/-- The outputs seen during the tick (R21, R32). -/
def out (s : State) : Outputs where
  lineO := s.seq.lineOut
  lineOeO := s.seq.drives
  cmdAcceptO := cmdAccept s
  cmdRejectO := cmdReject s
  busyO := s.seq.busy
  armedO := decide (s.seq = .armed)
  doneO := decide (s.seq = .done)
  okO := s.ok
  errO := s.err.code
  frameO := gated s s.frame.word
  humO := gated s (BitVec.ofNat 16 s.frame.humRaw)
  tempO := gated s s.frame.tempPort

end Sys2Proof.Machine
end

