-- ==== Sys2Proof/Safety.lean ====
section
/-! DEFINITION. The terms in which claims are made: the invariants of `10_state.md` R30 and their inductive
strengthening, runs of many ticks, the failure conditions of `60_exceptions.md` R231 to R235, and the decode read as a
function of run lengths (`43_frame_decoder.md` R189). -/

namespace Sys2Proof.Machine

/-! ### Runs -/

/-- `k` ticks. -/
def stepN (k : Nat) (s : State) : Host.Outcome State Fault Refusal := Host.Core.run Sys2Proof.core k s

/-- No reset in the next `k` ticks. -/
abbrev NoReset (k : Nat) (s : State) : Prop := ∀ j, j < k → (s.inputAt j).rst = false

/-- The line is at level `l` in ticks `a`, ..., `b - 1` from now. -/
abbrev LineHolds (l : Bool) (a b : Nat) (s : State) : Prop := ∀ j, j < b → a ≤ j → (s.inputAt j).line = l

/-- A command with this code is presented `j` ticks from now. -/
abbrev Presents (s : State) (j : Nat) (op : BitVec 2) : Prop :=
  (s.inputAt j).cmdValid = true ∧ (s.inputAt j).cmdOp = op

/-- The operation of the state's own code (R93). -/
abbrev OwnInstr (s : State) (i : Instr) : Prop := decode (.state s.seq.code) = .ok i

/-- The six registers of R20 agree. -/
abbrev SameRegisters (s t : State) : Prop :=
  t.seq = s.seq ∧ t.hcnt = s.hcnt ∧ t.pcnt = s.pcnt ∧ t.idx = s.idx ∧ t.frame = s.frame ∧ t.err = s.err

/-! ### The measurements -/

/-- The target level of a measurement state (`42_pulse_timer.md` R160). -/
def SeqState.target : SeqState → Option Bool
  | .ackLow | .bitLow => some false
  | .ackHigh | .bitHigh => some true
  | .idle | .startLow | .release | .armed | .checksum | .convert | .done => none

/-- The failure kind of a timeout in a measurement state (`60_exceptions.md` R231 to R233). -/
def SeqState.timeoutKind : SeqState → Err
  | .ackLow | .ackHigh => .noResponse
  | .bitLow => .lowPulseTimeout
  | .bitHigh => .highPulseTimeout
  | .idle | .startLow | .release | .armed | .checksum | .convert | .done => .none

/-- The condition of failure kind `k` holds in this tick (R231 to R235). -/
def FailsWith (s : State) (k : Err) : Prop :=
  (s.seq = .ackLow ∧ s.line = false ∧ s.pcnt + 1 = s.cfg.tTimeout ∧ k = .noResponse) ∨
  (s.seq = .ackHigh ∧ s.line = true ∧ s.pcnt + 1 = s.cfg.tTimeout ∧ k = .noResponse) ∨
  (s.seq = .bitLow ∧ s.line = false ∧ s.pcnt + 1 = s.cfg.tTimeout ∧ k = .lowPulseTimeout) ∨
  (s.seq = .bitHigh ∧ s.line = true ∧ s.pcnt + 1 = s.cfg.tTimeout ∧ k = .highPulseTimeout) ∨
  (s.seq = .checksum ∧ s.frame.sum8 ≠ s.frame.f4.toNat ∧ k = .checksumInvalid) ∨
  (s.seq = .convert ∧ 1000 < s.frame.humRaw ∧ k = .outOfRange)

/-- The verdict on an assembled frame: the checksum first, then the bound (`44_checksum_convert.md` R222). -/
def verdict (f : Frame) : Err :=
  if f.sum8 = f.f4.toNat then (if 1000 < f.humRaw then .outOfRange else .none) else .checksumInvalid

/-! ### Invariants -/

/-- Every frame bit from arrival index `n` on is 0. -/
abbrev Frame.ZeroFrom (f : Frame) (n : Nat) : Prop := ∀ j, j < 40 → n ≤ j → f.bit j = false

/-- R30 (a) -/
abbrev ErrOnlyInDone (s : State) : Prop := s.err ≠ .none → s.seq = .done

/-- R30 (b) -/
abbrev PcntBounded (s : State) : Prop :=
  s.pcnt ≤ s.cfg.tTimeout ∧
  (s.pcnt = s.cfg.tTimeout →
    s.seq = .done ∧ (s.err = .noResponse ∨ s.err = .lowPulseTimeout ∨ s.err = .highPulseTimeout))

/-- R30 (c) -/
abbrev IdxBounded (s : State) : Prop := s.idx ≤ 39

/-- R30 (d) -/
abbrev HcntBounded (s : State) : Prop :=
  (s.seq ≠ .startLow → s.seq ≠ .release → s.hcnt = 0) ∧
  (s.seq = .startLow → s.hcnt < s.cfg.tStartLow) ∧ (s.seq = .release → s.hcnt < s.cfg.tRelease)

/-- R30 (e) -/
abbrev AckHasNoBits (s : State) : Prop :=
  s.seq = .ackLow ∨ s.seq = .ackHigh → s.idx = 0 ∧ s.frame = frameClear

/-- R30 (f) -/
abbrev BitsAheadAreZero (s : State) : Prop :=
  s.seq = .bitLow ∨ s.seq = .bitHigh → s.frame.ZeroFrom s.idx

/-- R30 (g) -/
abbrev ChainedHasSample (s : State) : Prop :=
  s.seq = .ackHigh ∨ s.seq = .bitLow ∨ s.seq = .bitHigh → 1 ≤ s.pcnt

/-- R30 (h): `STATE` holds the code of one of the eleven named values. -/
abbrev SeqNamed (s : State) : Prop := s.seq.code.toNat ≤ 10

/-- R30 (i) -/
abbrev SuccessIsValid (s : State) : Prop :=
  s.seq = .done → s.err = .none →
    s.frame.sum8 = s.frame.f4.toNat ∧ s.frame.f0.toNat * 256 + s.frame.f1.toNat ≤ 1000

/-- R30, clauses (a) to (i). -/
abbrev RuleInvariants (s : State) : Prop :=
  ErrOnlyInDone s ∧ PcntBounded s ∧ IdxBounded s ∧ HcntBounded s ∧ AckHasNoBits s ∧ BitsAheadAreZero s ∧
  ChainedHasSample s ∧ SeqNamed s ∧ SuccessIsValid s

/-- Before a decode nothing is counted or assembled. DEDUCED from R35, R122, R145 (log 15). -/
abbrev QuietBeforeDecode (s : State) : Prop :=
  s.seq = .idle ∨ s.seq = .startLow ∨ s.seq = .release ∨ s.seq = .armed →
    s.pcnt = 0 ∧ s.idx = 0 ∧ s.frame = frameClear

/-- In CHECKSUM and CONVERT the frame is whole, and CONVERT is entered on a match. DEDUCED from R26, R184, R210, R212
(log 15). -/
abbrev FrameWhole (s : State) : Prop :=
  (s.seq = .checksum ∨ s.seq = .convert → s.pcnt = 0 ∧ s.idx = 39) ∧
  (s.seq = .convert → s.frame.sum8 = s.frame.f4.toNat)

/-- In DONE the registers fit the recorded kind. DEDUCED from R236 and R231 to R235 (log 15). -/
abbrev DoneFitsKind (s : State) : Prop :=
  s.seq = .done →
    match s.err with
    | .none => s.pcnt = 0 ∧ s.idx = 39
    | .noResponse => s.pcnt = s.cfg.tTimeout ∧ s.idx = 0 ∧ s.frame = frameClear
    | .lowPulseTimeout => s.pcnt = s.cfg.tTimeout ∧ s.frame.ZeroFrom s.idx
    | .highPulseTimeout => s.pcnt = s.cfg.tTimeout ∧ s.frame.ZeroFrom s.idx
    | .checksumInvalid => s.pcnt = 0 ∧ s.idx = 39 ∧ s.frame.sum8 ≠ s.frame.f4.toNat
    | .outOfRange => s.pcnt = 0 ∧ s.idx = 39 ∧ s.frame.sum8 = s.frame.f4.toNat ∧ 1000 < s.frame.humRaw

/-- The inductive invariant: R30 with what it needs to be kept by a step from every state that meets it. -/
def Inv (s : State) : Prop :=
  s.cfg.wf = true ∧ RuleInvariants s ∧ QuietBeforeDecode s ∧ FrameWhole s ∧ DoneFitsKind s

/-! ### The decode as a function of run lengths -/

/-- Runs of alternating level, the first at level `l`. -/
def runLevels : Bool → List Nat → List Bool
  | _, [] => []
  | l, n :: more => List.replicate n l ++ runLevels (!l) more

/-- The samples of R192: a low run of `r0` samples (absent if 0), the high run and the forty low and high runs, and the
low sample that ends the last. -/
def decodeLine (r0 : Nat) (rs : List Nat) : List Bool :=
  List.replicate r0 false ++ runLevels true rs ++ [false]

/-- The first timeout among the runs of the bits, low before high (R189). -/
def bitTimeout (limit : Nat) : List Nat → Option Err
  | lo :: hi :: more =>
    if limit ≤ lo then some .lowPulseTimeout
    else if limit ≤ hi then some .highPulseTimeout
    else bitTimeout limit more
  | _ => none

/-- The failure that the run lengths give, if one does (R189): `r0` is ACK_LOW's result, `rs` the 81 following runs. -/
def runsTimeout (limit r0 : Nat) (rs : List Nat) : Option Err :=
  if limit ≤ r0 then some .noResponse
  else
    match rs with
    | [] => none
    | r1 :: bits => if limit ≤ r1 then some .noResponse else bitTimeout limit bits

/-- A 40-bit left-shifting register after a list of bits (`20_memory.md` R75). -/
def shiftedIn (bits : List Bool) : BitVec 40 :=
  bits.foldl (fun r b => (r <<< 1) ||| (if b then 1#40 else 0#40)) 0

/-- The buffer after a list of decided bits, from arrival index `n` on (R65). -/
def assembled : Nat → List Bool → Frame → Frame
  | _, [], f => f
  | n, b :: more, f => assembled (n + 1) more (if b then frameSetBit n f else f)

end Sys2Proof.Machine
end

