-- ==== Sys2Proof/Certificates/Slice0/Obligations.lean ====
section
/-! DEFINITION. The statements for the provers. Results are written as the record the rules give, so each equation is
also the frame: a field not named keeps its value, the configuration and the scheduled inputs included. The passing of a tick
on the fields `feed` and `tick` (`State.advance`) is the model's own (log 2, log 3). -/

open Sys2Proof Sys2Proof.Machine

/-! ### Codes -/

/-- R92: the four command codes, the command words, and no command when the valid bit is 0. -/
def Obligations.CommandCodesAreR92 : Prop :=
  decode (.cmd 0b00#2) = .ok .cmdNop ∧ decode (.cmd 0b01#2) = .ok .cmdBegin ∧
  decode (.cmd 0b10#2) = .ok .cmdDecode ∧ decode (.cmd 0b11#2) = .ok .cmdRsvd ∧
  decodeCommandWord 0b100#3 = some .cmdNop ∧ decodeCommandWord 0b101#3 = some .cmdBegin ∧
  decodeCommandWord 0b110#3 = some .cmdDecode ∧ decodeCommandWord 0b111#3 = some .cmdRsvd ∧
  (∀ w : BitVec 3, w.getLsbD 2 = false → decodeCommandWord w = none)

/-- R93: each state's code, the operation it selects and its kind; codes 11 to 15 select none; and the step applies the
rule that `STATE` selects. -/
def Obligations.StateCodesAreR93 : Prop :=
  (SeqState.idle.code = 0b0000#4 ∧ decode (.state 0b0000#4) = .ok .stIdle ∧ SeqState.idle.holding = true) ∧
  (SeqState.startLow.code = 0b0001#4 ∧ decode (.state 0b0001#4) = .ok .stStartLow ∧ SeqState.startLow.busy = true) ∧
  (SeqState.release.code = 0b0010#4 ∧ decode (.state 0b0010#4) = .ok .stRelease ∧ SeqState.release.busy = true) ∧
  (SeqState.armed.code = 0b0011#4 ∧ decode (.state 0b0011#4) = .ok .stArmed ∧ SeqState.armed.holding = true) ∧
  (SeqState.ackLow.code = 0b0100#4 ∧ decode (.state 0b0100#4) = .ok .stAckLow ∧ SeqState.ackLow.busy = true) ∧
  (SeqState.ackHigh.code = 0b0101#4 ∧ decode (.state 0b0101#4) = .ok .stAckHigh ∧ SeqState.ackHigh.busy = true) ∧
  (SeqState.bitLow.code = 0b0110#4 ∧ decode (.state 0b0110#4) = .ok .stBitLow ∧ SeqState.bitLow.busy = true) ∧
  (SeqState.bitHigh.code = 0b0111#4 ∧ decode (.state 0b0111#4) = .ok .stBitHigh ∧ SeqState.bitHigh.busy = true) ∧
  (SeqState.checksum.code = 0b1000#4 ∧ decode (.state 0b1000#4) = .ok .stChecksum ∧ SeqState.checksum.busy = true) ∧
  (SeqState.convert.code = 0b1001#4 ∧ decode (.state 0b1001#4) = .ok .stConvert ∧ SeqState.convert.busy = true) ∧
  (SeqState.done.code = 0b1010#4 ∧ decode (.state 0b1010#4) = .ok .stDone ∧ SeqState.done.holding = true) ∧
  (∀ q : SeqState, q.busy = !q.holding) ∧
  (∀ q : SeqState, q.measuring = true ↔ q = .ackLow ∨ q = .ackHigh ∨ q = .bitLow ∨ q = .bitHigh) ∧
  (∀ c : BitVec 4, 11 ≤ c.toNat → decode (.state c) = .error (.unreachableState c)) ∧
  (∀ (s : State) (i : Instr), s.cfg.wf = true → s.inputs.rst = false → OwnInstr s i →
    ∃ t, exec i s = .next t ∧ step s = .next t.advance)

/-- Decoding and encoding are inverse to each other, on instructions and on the codes that decode. -/
def Obligations.DecodeEncodeAgree : Prop :=
  (∀ i : Instr, i.wf = true → decode (encode i) = .ok i) ∧
  (∀ (c : Code) (i : Instr), decode c = .ok i → encode i = c)

/-! ### A tick -/

/-- The model's choice (log 6, DEDUCED): without reset the step is the operation that the code picked by `fetchCode`
decodes to, a presented command's before the one in `STATE`, in a busy state too. R21 names the busy state's rule there;
`CommandRuleIsStateRule` says that the two agree. Then the tick passes: `feed` loses its head and `tick` goes up, fields of
the model's own (log 2, log 3). -/
def Obligations.StepRunsDecoded : Prop :=
  ∀ (s : State) (i : Instr), s.cfg.wf = true → s.inputs.rst = false → decode (fetchCode s) = .ok i →
    (∀ t, exec i s = .next t → step s = .next { t with feed := t.feed.tail, tick := t.tick + 1 }) ∧
    (∀ f, exec i s = .fault f → step s = .fault f) ∧ (∀ r, exec i s = .refused r → step s = .refused r)

/-- A code placed by `withFetchWord` is what the very next step runs. The model's own device (log 4, log 5). -/
def Obligations.PlacedCodeRunsNext : Prop :=
  ∀ (s : State) (nbits w : Nat) (i : Instr), s.cfg.wf = true → decodeTableWord nbits w = some i →
    ∃ t, exec i (s.withFetchWord nbits w) = .next t ∧ step (s.withFetchWord nbits w) = .next t.advance

/-- R12, R21: in a legal configuration every state and every input yields exactly one next state; R6: another
configuration is refused. -/
def Obligations.StepIsTotal : Prop :=
  (∀ s : State, s.cfg.wf = true → ∃ t, step s = .next t) ∧
  (∀ s : State, ¬(1 ≤ s.cfg.tStartLow ∧ 1 ≤ s.cfg.tRelease ∧ 1 ≤ s.cfg.tThresh ∧ s.cfg.tThresh + 2 ≤ s.cfg.tTimeout) →
    step s = .refused .configuration)

/-- The rule that `STATE` selects (R93) and the rule of the presented command (R120) give the same next state. -/
def Obligations.CommandRuleIsStateRule : Prop :=
  ∀ (s : State) (op : BitVec 2) (i : Instr), s.presented = some op → OwnInstr s i →
    ∃ t, exec (decodeCmd op) s = .next t ∧ exec i s = .next t

/-- R36: the configuration is changed by no step, reset and commands included. -/
def Obligations.ConfigurationNeverChanges : Prop :=
  ∀ s t : State, step s = .next t → t.cfg = s.cfg

/-! ### Reset -/

/-- R260: reset wins over everything in its tick; without it reset has no effect and the rule that `STATE` selects (R21,
R93) gives the next state. -/
def Obligations.ResetTakesPrecedence : Prop :=
  (∀ s : State, s.cfg.wf = true → s.inputs.rst = true →
    step s = .next { s with seq := .idle, hcnt := 0, pcnt := 0, idx := 0, frame := ⟨0, 0, 0, 0, 0⟩, err := .none,
                            feed := s.feed.tail, tick := s.tick + 1 } ∧
    (out s).cmdAcceptO = false ∧ (out s).cmdRejectO = false) ∧
  (∀ (s : State) (i : Instr), s.cfg.wf = true → s.inputs.rst = false → OwnInstr s i →
    ∃ t, exec i s = .next t ∧ step s = .next t.advance)

/-- R35, R261: the registers and the outputs after a tick with reset, and of `State.reset`. -/
def Obligations.ResetStateIsR35 : Prop :=
  ∀ s t : State, t = State.reset ∨ (s.inputs.rst = true ∧ step s = .next t) →
    t.seq = .idle ∧ t.seq.code = 0#4 ∧ t.hcnt = 0 ∧ t.pcnt = 0 ∧ t.idx = 0 ∧
    t.frame.f0 = 0 ∧ t.frame.f1 = 0 ∧ t.frame.f2 = 0 ∧ t.frame.f3 = 0 ∧ t.frame.f4 = 0 ∧ t.err = .none ∧
    (out t).lineO = true ∧ (out t).lineOeO = false ∧ (out t).busyO = false ∧ (out t).armedO = false ∧
    (out t).doneO = false ∧ (out t).okO = false ∧ (out t).errO = 0 ∧ (out t).frameO = 0 ∧ (out t).humO = 0 ∧
    (out t).tempO = 0

/-! ### Commands -/

/-- R121: NOP completes in every state; a holding state keeps every register, a busy state takes its own step. -/
def Obligations.NopHasNoEffect : Prop :=
  decode (.cmd 0b00#2) = .ok .cmdNop ∧
  (∀ s : State, s.seq.holding = true → exec .cmdNop s = .next s) ∧
  (∀ (s : State) (i : Instr), s.seq.busy = true → OwnInstr s i → ∃ t, exec i s = .next t ∧ exec .cmdNop s = .next t) ∧
  (∀ s : State, s.inputs.rst = false → s.presented = some 0b00#2 → (out s).cmdAcceptO = true ∧ (out s).cmdRejectO = false)

/-- R122: BEGIN in IDLE, ARMED and DONE starts the handshake and wipes everything; in a busy state it is rejected and
the state's own step is taken. -/
def Obligations.BeginStartsHandshake : Prop :=
  decode (.cmd 0b01#2) = .ok .cmdBegin ∧
  (∀ s : State, s.seq = .idle ∨ s.seq = .armed ∨ s.seq = .done →
    ∃ t, exec .cmdBegin s = .next t ∧
      t = { s with seq := .startLow, hcnt := 0, pcnt := 0, idx := 0, frame := ⟨0, 0, 0, 0, 0⟩, err := .none } ∧
      (out t).busyO = true ∧ (out t).armedO = false ∧ (out t).doneO = false ∧ (out t).okO = false ∧
      (out t).errO = 0 ∧ (out t).frameO = 0 ∧ (out t).humO = 0 ∧ (out t).tempO = 0 ∧
      (out t).lineOeO = true ∧ (out t).lineO = false) ∧
  (∀ s : State, s.inputs.rst = false → s.presented = some 0b01#2 →
    (out s).cmdAcceptO = decide (s.seq = .idle ∨ s.seq = .armed ∨ s.seq = .done) ∧ (out s).cmdRejectO = s.seq.busy) ∧
  (∀ (s : State) (i : Instr), s.seq.busy = true → OwnInstr s i → ∃ t, exec i s = .next t ∧ exec .cmdBegin s = .next t)

/-- R123: DECODE in ARMED starts the frame decoder; anywhere else it is rejected with no effect of its own. -/
def Obligations.DecodeStartsDecoder : Prop :=
  decode (.cmd 0b10#2) = .ok .cmdDecode ∧
  (∀ s : State, s.seq = .armed →
    ∃ t, exec .cmdDecode s = .next t ∧
      t = { s with seq := .ackLow, hcnt := 0, pcnt := 0, idx := 0, frame := ⟨0, 0, 0, 0, 0⟩, err := .none } ∧
      (out t).busyO = true ∧ (out t).armedO = false ∧ (out s).lineOeO = false ∧ (out t).lineOeO = false) ∧
  (∀ s : State, s.seq = .idle ∨ s.seq = .done → exec .cmdDecode s = .next s) ∧
  (∀ s : State, s.inputs.rst = false → s.presented = some 0b10#2 →
    (out s).cmdAcceptO = decide (s.seq = .armed) ∧ (out s).cmdRejectO = !decide (s.seq = .armed)) ∧
  (∀ (s : State) (i : Instr), s.seq.busy = true → OwnInstr s i → ∃ t, exec i s = .next t ∧ exec .cmdDecode s = .next t)

/-- R124: RSVD is rejected everywhere, and a rejected command leaves the tick as if nothing were presented. -/
def Obligations.RejectedCommandChangesNothing : Prop :=
  decode (.cmd 0b11#2) = .ok .cmdRsvd ∧
  (∀ s : State, s.seq.holding = true → exec .cmdRsvd s = .next s) ∧
  (∀ (s : State) (i : Instr), s.seq.busy = true → OwnInstr s i → ∃ t, exec i s = .next t ∧ exec .cmdRsvd s = .next t) ∧
  (∀ (s : State) (op : BitVec 2), s.inputs.rst = false → s.presented = some op →
    (op = 0b11#2 ∨ (op = 0b01#2 ∧ s.seq.busy = true) ∨ (op = 0b10#2 ∧ s.seq ≠ .armed)) →
    (out s).cmdRejectO = true ∧ step s = step (s.withInputs { s.inputs with cmdValid := false }))

/-- R125 with the table of R120, and that no other output depends on the tick's inputs. -/
def Obligations.AcceptAndRejectOutputs : Prop :=
  (∀ s : State, (out s).cmdAcceptO = true ↔
    s.inputs.rst = false ∧ s.inputs.cmdValid = true ∧
    (s.inputs.cmdOp = 0b00#2 ∨
     (s.inputs.cmdOp = 0b01#2 ∧ (s.seq = .idle ∨ s.seq = .armed ∨ s.seq = .done)) ∨
     (s.inputs.cmdOp = 0b10#2 ∧ s.seq = .armed))) ∧
  (∀ s : State, (out s).cmdRejectO = true ↔
    s.inputs.rst = false ∧ s.inputs.cmdValid = true ∧ (out s).cmdAcceptO = false) ∧
  (∀ (s : State) (i : Inputs),
    { out (s.withInputs i) with cmdAcceptO := false, cmdRejectO := false } =
    { out s with cmdAcceptO := false, cmdRejectO := false })

/-- R128, R143, R219: with nothing presented a holding state keeps every register, whatever the line shows; a presented
command acts by the table of R120, with the writes of R122 and R123. That the rule of a state's code acts so whatever
`STATE` holds is the model's choice (log 16). -/
def Obligations.HoldingStatesWait : Prop :=
  (∀ s : State, s.inputs.cmdValid = false →
    exec .stIdle s = .next s ∧ exec .stArmed s = .next s ∧ exec .stDone s = .next s) ∧
  (∀ s : State, s.presented = some 0b00#2 ∨ s.presented = some 0b11#2 →
    exec .stIdle s = .next s ∧ exec .stArmed s = .next s ∧ exec .stDone s = .next s) ∧
  (∀ s : State, s.presented = some 0b10#2 →
    exec .stIdle s = .next s ∧ exec .stDone s = .next s ∧
    exec .stArmed s =
      .next { s with seq := .ackLow, hcnt := 0, pcnt := 0, idx := 0, frame := ⟨0, 0, 0, 0, 0⟩, err := .none }) ∧
  (∀ (s : State) (i : Instr), s.presented = some 0b01#2 → i = .stIdle ∨ i = .stArmed ∨ i = .stDone →
    exec i s =
      .next { s with seq := .startLow, hcnt := 0, pcnt := 0, idx := 0, frame := ⟨0, 0, 0, 0, 0⟩, err := .none })

/-- R120: in a busy state the step of that state is taken whatever the command inputs are. -/
def Obligations.BusyStatesIgnoreCommands : Prop :=
  ∀ (s : State) (i j : Inputs), s.seq.busy = true → i.rst = j.rst → i.line = j.line →
    step (s.withInputs i) = step (s.withInputs j)

/-- R91: with `cmd_valid_i = 0` the command code is ignored, in every state. -/
def Obligations.CodeIgnoredWhenNotValid : Prop :=
  ∀ (s : State) (i : Inputs) (op : BitVec 2), i.cmdValid = false →
    step (s.withInputs { i with cmdOp := op }) = step (s.withInputs i) ∧
    out (s.withInputs { i with cmdOp := op }) = out (s.withInputs i)

/-- R29: nothing of an earlier transaction survives an accepted BEGIN. -/
def Obligations.BeginForgetsEarlierTransactions : Prop :=
  ∀ s u : State, s.cfg = u.cfg → s.feed = u.feed → s.tick = u.tick → s.seq.holding = true → u.seq.holding = true →
    Presents s 0 0b01#2 → step s = step u

/-! ### Handshake and pin -/

/-- One tick of START_LOW (the pseudocode of R141). -/
def Obligations.StartLowTick : Prop :=
  decode (.state 0b0001#4) = .ok .stStartLow ∧
  (∀ s : State, s.hcnt + 1 = s.cfg.tStartLow → exec .stStartLow s = .next { s with seq := .release, hcnt := 0 }) ∧
  (∀ s : State, s.hcnt + 1 ≠ s.cfg.tStartLow → exec .stStartLow s = .next { s with hcnt := s.hcnt + 1 }) ∧
  (∀ s : State, s.seq = .startLow → (out s).lineOeO = true ∧ (out s).lineO = false ∧ (out s).busyO = true)

/-- One tick of RELEASE (the pseudocode of R142). -/
def Obligations.ReleaseTick : Prop :=
  decode (.state 0b0010#4) = .ok .stRelease ∧
  (∀ s : State, s.hcnt + 1 = s.cfg.tRelease → exec .stRelease s = .next { s with seq := .armed, hcnt := 0 }) ∧
  (∀ s : State, s.hcnt + 1 ≠ s.cfg.tRelease → exec .stRelease s = .next { s with hcnt := s.hcnt + 1 }) ∧
  (∀ s : State, s.seq = .release → (out s).lineOeO = true ∧ (out s).lineO = true ∧ (out s).busyO = true)

/-- R274, which the spec derives from R141 and R142: the pin from the tick of an accepted BEGIN on, tick by tick, and
ARMED from its tick on until the next BEGIN or DECODE; 18031 ticks after BEGIN with the defaults. -/
def Obligations.HandshakeTimeline : Prop :=
  (∀ s : State, s.cfg.wf = true → s.seq.holding = true → Presents s 0 0b01#2 →
    NoReset (s.cfg.tStartLow + s.cfg.tRelease + 1) s →
    (∀ j, 1 ≤ j → j ≤ s.cfg.tStartLow →
      ∃ t, stepN j s = .next t ∧ t.seq = .startLow ∧ t.hcnt = j - 1 ∧ (out t).lineOeO = true ∧ (out t).lineO = false) ∧
    (∀ j, s.cfg.tStartLow + 1 ≤ j → j ≤ s.cfg.tStartLow + s.cfg.tRelease →
      ∃ t, stepN j s = .next t ∧ t.seq = .release ∧ t.hcnt = j - 1 - s.cfg.tStartLow ∧ (out t).lineOeO = true ∧
        (out t).lineO = true) ∧
    (∀ m, NoReset (s.cfg.tStartLow + s.cfg.tRelease + 1 + m) s →
      (∀ j, j < m → ¬Presents s (s.cfg.tStartLow + s.cfg.tRelease + 1 + j) 0b01#2 ∧
        ¬Presents s (s.cfg.tStartLow + s.cfg.tRelease + 1 + j) 0b10#2) →
      ∃ t, stepN (s.cfg.tStartLow + s.cfg.tRelease + 1 + m) s = .next t ∧ t.seq = .armed ∧ (out t).armedO = true)) ∧
  Config.default.tStartLow + Config.default.tRelease + 1 = 18031

/-- R144: the two pin outputs are functions of `STATE` alone. -/
def Obligations.PinDriverTable : Prop :=
  ∀ s : State,
    (s.seq = .startLow → (out s).lineOeO = true ∧ (out s).lineO = false) ∧
    (s.seq = .release → (out s).lineOeO = true ∧ (out s).lineO = true) ∧
    (s.seq ≠ .startLow → s.seq ≠ .release → (out s).lineOeO = false ∧ (out s).lineO = true)

/-- R66; R128, R140 to R143, R210, R212, R219: only a measurement state looks at the line. -/
def Obligations.LineUnusedOutsideMeasurement : Prop :=
  ∀ (s : State) (i : Inputs) (l : Bool), s.seq.measuring = false →
    step (s.withInputs { i with line := l }) = step (s.withInputs i)

/-! ### Measurements -/

/-- R161, in each of the four measurement states. -/
def Obligations.MeasurementGoesOn : Prop :=
  (∀ s : State, s.line = false → s.pcnt + 1 < s.cfg.tTimeout →
    exec .stAckLow s = .next { s with pcnt := s.pcnt + 1 } ∧ exec .stBitLow s = .next { s with pcnt := s.pcnt + 1 }) ∧
  (∀ s : State, s.line = true → s.pcnt + 1 < s.cfg.tTimeout →
    exec .stAckHigh s = .next { s with pcnt := s.pcnt + 1 } ∧ exec .stBitHigh s = .next { s with pcnt := s.pcnt + 1 })

/-- The timeout of each measurement state (R162), with its kind. -/
def Obligations.MeasurementTimesOut : Prop :=
  (∀ s : State, s.line = false → s.pcnt + 1 = s.cfg.tTimeout →
    exec .stAckLow s = .next { s with pcnt := s.cfg.tTimeout, err := .noResponse, seq := .done } ∧
    exec .stBitLow s = .next { s with pcnt := s.cfg.tTimeout, err := .lowPulseTimeout, seq := .done }) ∧
  (∀ s : State, s.line = true → s.pcnt + 1 = s.cfg.tTimeout →
    exec .stAckHigh s = .next { s with pcnt := s.cfg.tTimeout, err := .noResponse, seq := .done } ∧
    exec .stBitHigh s = .next { s with pcnt := s.cfg.tTimeout, err := .highPulseTimeout, seq := .done })

/-- The end of the pulse in ACK_LOW, ACK_HIGH and BIT_LOW (R163 to R165): the next measurement starts with the sample
already counted, and ACK_LOW may end with nothing counted. -/
def Obligations.EdgeChainsMeasurements : Prop :=
  (∀ s : State, s.line = true →
    exec .stAckLow s = .next { s with seq := .ackHigh, pcnt := 1 } ∧
    exec .stBitLow s = .next { s with seq := .bitHigh, pcnt := 1 }) ∧
  (∀ s : State, s.line = false → exec .stAckHigh s = .next { s with seq := .bitLow, pcnt := 1 })

/-- The end of a data pulse (the pseudocode of R184). -/
def Obligations.DataPulseEnds : Prop :=
  (∀ s : State, s.line = false → s.idx = 39 →
    exec .stBitHigh s =
      .next { s with frame := if s.cfg.tThresh < s.pcnt then frameSetBit 39 s.frame else s.frame,
                     seq := .checksum, pcnt := 0 }) ∧
  (∀ s : State, s.line = false → s.idx ≠ 39 →
    exec .stBitHigh s =
      .next { s with frame := if s.cfg.tThresh < s.pcnt then frameSetBit s.idx s.frame else s.frame,
                     seq := .bitLow, pcnt := 1, idx := s.idx + 1 })

/-- R186: the decided bit lands at its arrival index, a 0 keeps the 0 of the clear, no other bit changes. -/
def Obligations.DecidedBitIsPlaced : Prop :=
  ∀ s : State, Inv s → s.seq = .bitHigh → s.line = false →
    ∃ t, exec .stBitHigh s = .next t ∧
      ∀ j, j < 40 → t.frame.bit j = if j = s.idx then decide (s.cfg.tThresh < s.pcnt) else s.frame.bit j

/-- R62: where an arrival index lies, in its byte and in the 40-bit word of the port, with the rule's four examples. -/
def Obligations.ArrivalIndexPlacement : Prop :=
  (∀ (f : Frame) (idx : Nat), idx < 40 →
    f.bit idx = (f.byte (idx / 8)).getLsbD (7 - idx % 8) ∧ f.word.getLsbD (39 - idx) = f.bit idx) ∧
  (∀ s : State, (out s).okO = true → (out s).frameO = s.frame.word) ∧
  (∀ f : Frame, f.bit 0 = f.f0.getLsbD 7 ∧ f.bit 7 = f.f0.getLsbD 0 ∧ f.bit 8 = f.f1.getLsbD 7 ∧
    f.bit 39 = f.f4.getLsbD 0)

/-- R65: setting a bit is an OR of one bit. -/
def Obligations.SetBitChangesOneBit : Prop :=
  ∀ (f : Frame) (idx j : Nat), idx < 40 → j < 40 → (frameSetBit idx f).bit j = (decide (j = idx) || f.bit j)

/-- R75: the buffer after `n` bits is a left-shifting register after `n` bits, shifted left by `40 - n` more. -/
def Obligations.BufferIsShiftRegister : Prop :=
  ∀ bits : List Bool, bits.length ≤ 40 →
    (assembled 0 bits frameClear).word = shiftedIn bits <<< (40 - bits.length)

/-- R65, R70: what one step does to the frame buffer, in every case. -/
def Obligations.FrameIsWrittenOnlyByRule : Prop :=
  ∀ s t : State, step s = .next t →
    t.frame =
      if s.inputs.rst = true ∨ (s.presented = some 0b01#2 ∧ s.seq.holding = true) ∨
          (s.presented = some 0b10#2 ∧ s.seq = .armed) then ⟨0, 0, 0, 0, 0⟩
      else if s.seq = .bitHigh ∧ s.line = false ∧ s.cfg.tThresh < s.pcnt then frameSetBit s.idx s.frame
      else s.frame

/-- R166: a measurement counts the samples of its pulse. `n` more samples at the target level leave it `n` further on
while the timeout is not reached, and end it with its failure when they reach it. -/
def Obligations.MeasurementCountsSamples : Prop :=
  ∀ (s : State) (l : Bool) (n : Nat), s.cfg.wf = true → s.seq.target = some l → NoReset n s → LineHolds l 0 n s →
    (s.pcnt + n < s.cfg.tTimeout →
      ∃ t, stepN n s = .next t ∧ SameRegisters { s with pcnt := s.pcnt + n } t) ∧
    (1 ≤ n → s.pcnt + n = s.cfg.tTimeout →
      ∃ t, stepN n s = .next t ∧
        SameRegisters { s with pcnt := s.cfg.tTimeout, err := s.seq.timeoutKind, seq := .done } t)

/-- R167: the sentinel in `PCNT` and the timeout occur together and never apart. -/
def Obligations.SentinelIsTimeout : Prop :=
  ∀ (s t : State) (i : Instr), Inv s → s.seq.measuring = true → OwnInstr s i → exec i s = .next t →
    (t.pcnt = t.cfg.tTimeout ↔ t.err = s.seq.timeoutKind) ∧ (t.pcnt = t.cfg.tTimeout ↔ t.seq = .done)

/-- R276: a line that never changes gives NoResponse at tick `a + T_TIMEOUT + 1`, and nothing before. -/
def Obligations.StillLineGivesNoResponse : Prop :=
  ∀ (s : State) (l : Bool), s.cfg.wf = true → s.seq = .armed → Presents s 0 0b10#2 →
    NoReset (s.cfg.tTimeout + 1) s → LineHolds l 1 (s.cfg.tTimeout + 1) s →
    (∀ j, 1 ≤ j → j ≤ s.cfg.tTimeout → ∃ t, stepN j s = .next t ∧ (out t).doneO = false) ∧
    (∃ t, stepN (s.cfg.tTimeout + 1) s = .next t ∧ t.seq = .done ∧ t.err = .noResponse ∧ t.pcnt = s.cfg.tTimeout)

/-- R189, which the spec derives from R181 to R187 and R166: the decode as a function of run lengths. From the first
state of a decode, with the line showing the runs of R192, the block reaches DONE with the failure the run lengths
give, or with bit `i` set exactly when run `2i + 3` is longer than the threshold and the verdict of checksum and
bound. -/
def Obligations.DecodeIsFunctionOfRuns : Prop :=
  ∀ (s : State) (r0 : Nat) (rs : List Nat), s.cfg.wf = true →
    s.seq = .ackLow → s.hcnt = 0 → s.pcnt = 0 → s.idx = 0 → s.frame = frameClear → s.err = .none →
    rs.length = 81 → (∀ r, r ∈ rs → 1 ≤ r) → NoReset ((decodeLine r0 rs).length + 2) s →
    (∀ j, j < (decodeLine r0 rs).length → some (s.inputAt j).line = (decodeLine r0 rs)[j]?) →
    ∃ k t, k ≤ (decodeLine r0 rs).length + 2 ∧ stepN k s = .next t ∧ t.seq = .done ∧
      match runsTimeout s.cfg.tTimeout r0 rs with
      | some e => t.err = e
      | none => (∀ i, i < 40 → t.frame.bit i = decide (s.cfg.tThresh < rs.getD (2 * i + 2) 0)) ∧ t.err = verdict t.frame

/-- R275, its late end: every decode is over within `82 * T_TIMEOUT - 79` ticks of the tick that accepts DECODE,
whatever the line and the host do, reset apart. -/
def Obligations.EveryDecodeEnds : Prop :=
  ∀ s : State, s.cfg.wf = true → s.seq = .armed → Presents s 0 0b10#2 → NoReset (82 * s.cfg.tTimeout - 79) s →
    ∃ k t, k ≤ 82 * s.cfg.tTimeout - 79 ∧ stepN k s = .next t ∧ t.seq = .done

/-! ### Checksum, conversion, result -/

/-- R211: the checksum arithmetic, and what CHECKSUM does on a match and on a mismatch. -/
def Obligations.ChecksumIsSumModulo256 : Prop :=
  (∀ f : Frame, f.f0.toNat + f.f1.toNat + f.f2.toNat + f.f3.toNat ≤ 1020 ∧
    (f.f0 + f.f1 + f.f2 + f.f3).toNat = (f.f0.toNat + f.f1.toNat + f.f2.toNat + f.f3.toNat) % 256) ∧
  (∀ s : State, s.frame.f0 + s.frame.f1 + s.frame.f2 + s.frame.f3 = s.frame.f4 →
    exec .stChecksum s = .next { s with seq := .convert }) ∧
  (∀ s : State, s.frame.f0 + s.frame.f1 + s.frame.f2 + s.frame.f3 ≠ s.frame.f4 →
    exec .stChecksum s = .next { s with err := .checksumInvalid, seq := .done })

/-- The step of CONVERT (the pseudocode of R212; R217, R218): only the humidity counts. -/
def Obligations.ConvertChecksHumidity : Prop :=
  (∀ s : State, s.frame.f0.toNat * 256 + s.frame.f1.toNat ≤ 1000 → exec .stConvert s = .next { s with seq := .done }) ∧
  (∀ s : State, 1000 < s.frame.f0.toNat * 256 + s.frame.f1.toNat →
    exec .stConvert s = .next { s with err := .outOfRange, seq := .done })

/-- R222: the checksum is judged before the bound, never both. Two ticks after CHECKSUM the kind is the verdict. -/
def Obligations.ChecksumBeforeBound : Prop :=
  ∀ s : State, Inv s → s.seq = .checksum → NoReset 2 s →
    (s.frame.sum8 ≠ s.frame.f4.toNat → ∃ t, stepN 1 s = .next t ∧ t.seq = .done ∧ t.err = .checksumInvalid) ∧
    (s.frame.sum8 = s.frame.f4.toNat → 1000 < s.frame.humRaw →
      ∃ t, stepN 2 s = .next t ∧ t.seq = .done ∧ t.err = .outOfRange ∧ t.frame = s.frame) ∧
    (s.frame.sum8 = s.frame.f4.toNat → s.frame.humRaw ≤ 1000 →
      ∃ t, stepN 2 s = .next t ∧ t.seq = .done ∧ t.err = .none ∧ t.frame = s.frame)

/-- R213 with R96: the raw humidity is the two bytes, big-endian, in 16 bits. -/
def Obligations.HumidityAssembly : Prop :=
  ∀ f : Frame, f.humRaw = f.f0.toNat * 256 + f.f1.toNat ∧ f.humRaw ≤ 65535 ∧
    BitVec.ofNat 16 f.humRaw = (f.f0.setWidth 16 <<< 8) ||| f.f1.setWidth 16

/-- R214: magnitude, sign, range, and the 16-bit two's complement of the port. -/
def Obligations.TemperatureAssembly : Prop :=
  (∀ f : Frame, f.tmag = (f.f2 &&& 0x7F#8).toNat * 256 + f.f3.toNat ∧ f.tmag ≤ 32767 ∧
    (f.f2.getLsbD 7 = true → f.tempVal = -(f.tmag : Int) ∧ f.tempPort = BitVec.ofNat 16 (65536 - f.tmag)) ∧
    (f.f2.getLsbD 7 = false → f.tempVal = (f.tmag : Int) ∧ f.tempPort = BitVec.ofNat 16 f.tmag) ∧
    -32767 ≤ f.tempVal ∧ f.tempVal ≤ 32767 ∧ f.tempPort.toInt = f.tempVal) ∧
  (∀ f : Frame, f.f2 = 0x80#8 → f.f3 = 0x0A#8 → f.tmag = 10 ∧ f.tempVal = -10 ∧ f.tempPort = 0xFFF6#16)

/-- R216: sign flag with magnitude 0 gives 0. -/
def Obligations.NoNegativeZero : Prop :=
  ∀ f : Frame, f.f2 = 0x80#8 → f.f3 = 0x00#8 → f.tsign = true ∧ f.tmag = 0 ∧ f.tempVal = 0 ∧ f.tempPort = 0x0000#16

/-- R220: the data ports carry the result in DONE without failure, and are 0 in every other case. -/
def Obligations.DataPortsAreGated : Prop :=
  (∀ s : State, s.seq = .done → s.err = .none →
    (out s).frameO = s.frame.f0 ++ s.frame.f1 ++ s.frame.f2 ++ s.frame.f3 ++ s.frame.f4 ∧
    (out s).humO = BitVec.ofNat 16 s.frame.humRaw ∧ (out s).tempO = BitVec.ofInt 16 s.frame.tempVal) ∧
  (∀ s : State, ¬(s.seq = .done ∧ s.err = .none) → (out s).frameO = 0 ∧ (out s).humO = 0 ∧ (out s).tempO = 0)

/-- R104: the ranges of the result ports, in every state that meets the invariant. -/
def Obligations.ResultPortRanges : Prop :=
  ∀ s : State, Inv s →
    ((out s).okO = true →
      (out s).humO.toNat = s.frame.f0.toNat * 256 + s.frame.f1.toNat ∧ (out s).humO.toNat ≤ 1000 ∧
      (out s).tempO.toInt = s.frame.tempVal ∧ -32767 ≤ (out s).tempO.toInt ∧ (out s).tempO.toInt ≤ 32767 ∧
      (out s).frameO = s.frame.f0 ++ s.frame.f1 ++ s.frame.f2 ++ s.frame.f3 ++ s.frame.f4) ∧
    (out s).tempO ≠ 0x8000#16 ∧
    ((out s).okO = false → (out s).frameO = 0 ∧ (out s).humO = 0 ∧ (out s).tempO = 0)

/-- R32: which states set busy, armed and done, `ok_o` and `err_o` from the registers; R34: at most one of the first three,
none exactly in IDLE; R28: `err_o` is at most 5. -/
def Obligations.StatusFlags : Prop :=
  ∀ s : State,
    ((out s).busyO = true ↔ s.seq = .startLow ∨ s.seq = .release ∨ s.seq = .ackLow ∨ s.seq = .ackHigh ∨
      s.seq = .bitLow ∨ s.seq = .bitHigh ∨ s.seq = .checksum ∨ s.seq = .convert) ∧
    ((out s).armedO = true ↔ s.seq = .armed) ∧ ((out s).doneO = true ↔ s.seq = .done) ∧
    ¬((out s).busyO = true ∧ (out s).armedO = true) ∧ ¬((out s).busyO = true ∧ (out s).doneO = true) ∧
    ¬((out s).armedO = true ∧ (out s).doneO = true) ∧
    ((out s).busyO = false ∧ (out s).armedO = false ∧ (out s).doneO = false ↔ s.seq = .idle) ∧
    ((out s).okO = true ↔ s.seq = .done ∧ s.err = .none) ∧ (out s).errO = s.err.code ∧ (out s).errO.toNat ≤ 5

/-- R73: in DONE the registers and the result ports keep their values for as long as no BEGIN is accepted and no reset
is taken. -/
def Obligations.ResultIsStable : Prop :=
  ∀ (s : State) (k : Nat), s.cfg.wf = true → s.seq = .done → NoReset k s → (∀ j, j < k → ¬Presents s j 0b01#2) →
    ∃ t, stepN k s = .next t ∧ SameRegisters s t ∧ (out t).doneO = true ∧ (out t).okO = (out s).okO ∧
      (out t).errO = (out s).errO ∧ (out t).frameO = (out s).frameO ∧ (out t).humO = (out s).humO ∧
      (out t).tempO = (out s).tempO

/-! ### Failures -/

/-- R236: the entry of every failure kind, its registers and the outputs of the next tick. -/
def Obligations.FailureEntry : Prop :=
  ∀ (s : State) (k : Err) (i : Instr), FailsWith s k → OwnInstr s i →
    ∃ t, exec i s = .next t ∧
      t = { s with err := k, seq := .done, pcnt := if s.seq.measuring then s.cfg.tTimeout else s.pcnt } ∧
      (out t).doneO = true ∧ (out t).okO = false ∧ (out t).errO = k.code ∧ (out t).busyO = false ∧
      (out t).frameO = 0 ∧ (out t).humO = 0 ∧ (out t).tempO = 0 ∧
      (out s).lineOeO = false ∧ (out t).lineOeO = false

/-- R28: when `ERR` is set, when it is cleared, that nothing else changes it, and its codes on `err_o`. -/
def Obligations.ErrIsSetOnlyByFailure : Prop :=
  (∀ s t : State, step s = .next t →
    (t.err ≠ .none → t.err ≠ s.err → s.inputs.rst = false ∧ FailsWith s t.err ∧ t.seq = .done ∧ s.seq ≠ .done) ∧
    (∀ k, s.inputs.rst = false → FailsWith s k → t.err = k ∧ t.seq = .done) ∧
    (s.inputs.rst = true ∨ (s.presented = some 0b01#2 ∧ s.seq.holding = true) ∨
      (s.presented = some 0b10#2 ∧ s.seq = .armed) → t.err = .none) ∧
    (t.err = .none → s.err ≠ .none → s.inputs.rst = true ∨ (s.presented = some 0b01#2 ∧ s.seq.holding = true) ∨
      (s.presented = some 0b10#2 ∧ s.seq = .armed))) ∧
  (∀ s : State, (out s).errO = s.err.code) ∧
  Err.none.code = 0 ∧ Err.noResponse.code = 1 ∧ Err.lowPulseTimeout.code = 2 ∧ Err.highPulseTimeout.code = 3 ∧
  Err.checksumInvalid.code = 4 ∧ Err.outOfRange.code = 5

/-- R238: no two failure conditions hold in one tick. -/
def Obligations.AtMostOneFailureCondition : Prop :=
  ∀ (s : State) (k l : Err), FailsWith s k → FailsWith s l → k = l

/-- R251, which the spec derives from the rules of its rows: every row of the transition table, and reset over every
row. -/
def Obligations.TransitionTable : Prop :=
  (∀ s : State, s.cfg.wf = true → s.inputs.rst = true →
    step s = .next (State.advance { s with seq := .idle, hcnt := 0, pcnt := 0, idx := 0, frame := ⟨0, 0, 0, 0, 0⟩,
                                           err := .none })) ∧
  ∀ s : State, s.cfg.wf = true → s.inputs.rst = false →
    ((s.seq = .idle ∨ s.seq = .armed ∨ s.seq = .done) → s.presented = some 0b01#2 →
      step s = .next (State.advance { s with seq := .startLow, hcnt := 0, pcnt := 0, idx := 0,
                                             frame := ⟨0, 0, 0, 0, 0⟩, err := .none })) ∧
    (s.seq = .armed → s.presented = some 0b10#2 →
      step s = .next (State.advance { s with seq := .ackLow, hcnt := 0, pcnt := 0, idx := 0,
                                             frame := ⟨0, 0, 0, 0, 0⟩, err := .none })) ∧
    ((s.seq = .idle ∨ s.seq = .armed ∨ s.seq = .done) → s.presented ≠ some 0b01#2 →
      ¬(s.seq = .armed ∧ s.presented = some 0b10#2) → step s = .next s.advance) ∧
    (s.seq = .startLow → s.hcnt + 1 < s.cfg.tStartLow →
      step s = .next (State.advance { s with hcnt := s.hcnt + 1 })) ∧
    (s.seq = .startLow → s.hcnt + 1 = s.cfg.tStartLow →
      step s = .next (State.advance { s with seq := .release, hcnt := 0 })) ∧
    (s.seq = .release → s.hcnt + 1 < s.cfg.tRelease →
      step s = .next (State.advance { s with hcnt := s.hcnt + 1 })) ∧
    (s.seq = .release → s.hcnt + 1 = s.cfg.tRelease →
      step s = .next (State.advance { s with seq := .armed, hcnt := 0 })) ∧
    (s.seq = .ackLow → s.line = false → s.pcnt + 1 < s.cfg.tTimeout →
      step s = .next (State.advance { s with pcnt := s.pcnt + 1 })) ∧
    (s.seq = .ackLow → s.line = false → s.pcnt + 1 = s.cfg.tTimeout →
      step s = .next (State.advance { s with seq := .done, pcnt := s.cfg.tTimeout, err := .noResponse })) ∧
    (s.seq = .ackLow → s.line = true → step s = .next (State.advance { s with seq := .ackHigh, pcnt := 1 })) ∧
    (s.seq = .ackHigh → s.line = true → s.pcnt + 1 < s.cfg.tTimeout →
      step s = .next (State.advance { s with pcnt := s.pcnt + 1 })) ∧
    (s.seq = .ackHigh → s.line = true → s.pcnt + 1 = s.cfg.tTimeout →
      step s = .next (State.advance { s with seq := .done, pcnt := s.cfg.tTimeout, err := .noResponse })) ∧
    (s.seq = .ackHigh → s.line = false → step s = .next (State.advance { s with seq := .bitLow, pcnt := 1 })) ∧
    (s.seq = .bitLow → s.line = false → s.pcnt + 1 < s.cfg.tTimeout →
      step s = .next (State.advance { s with pcnt := s.pcnt + 1 })) ∧
    (s.seq = .bitLow → s.line = false → s.pcnt + 1 = s.cfg.tTimeout →
      step s = .next (State.advance { s with seq := .done, pcnt := s.cfg.tTimeout, err := .lowPulseTimeout })) ∧
    (s.seq = .bitLow → s.line = true → step s = .next (State.advance { s with seq := .bitHigh, pcnt := 1 })) ∧
    (s.seq = .bitHigh → s.line = true → s.pcnt + 1 < s.cfg.tTimeout →
      step s = .next (State.advance { s with pcnt := s.pcnt + 1 })) ∧
    (s.seq = .bitHigh → s.line = true → s.pcnt + 1 = s.cfg.tTimeout →
      step s = .next (State.advance { s with seq := .done, pcnt := s.cfg.tTimeout, err := .highPulseTimeout })) ∧
    (s.seq = .bitHigh → s.line = false → s.idx < 39 →
      step s = .next (State.advance { s with
        frame := if s.cfg.tThresh < s.pcnt then frameSetBit s.idx s.frame else s.frame,
        seq := .bitLow, pcnt := 1, idx := s.idx + 1 })) ∧
    (s.seq = .bitHigh → s.line = false → s.idx = 39 →
      step s = .next (State.advance { s with
        frame := if s.cfg.tThresh < s.pcnt then frameSetBit 39 s.frame else s.frame,
        seq := .checksum, pcnt := 0 })) ∧
    (s.seq = .checksum → s.frame.sum8 = s.frame.f4.toNat →
      step s = .next (State.advance { s with seq := .convert })) ∧
    (s.seq = .checksum → s.frame.sum8 ≠ s.frame.f4.toNat →
      step s = .next (State.advance { s with seq := .done, err := .checksumInvalid })) ∧
    (s.seq = .convert → s.frame.humRaw ≤ 1000 → step s = .next (State.advance { s with seq := .done })) ∧
    (s.seq = .convert → 1000 < s.frame.humRaw →
      step s = .next (State.advance { s with seq := .done, err := .outOfRange }))

/-- R23: reset apart, `STATE` moves only along the listed transitions, and `IDX` never passes 39. -/
def Obligations.OnlyListedTransitions : Prop :=
  ∀ s t : State, step s = .next t → s.inputs.rst = false →
    (t.seq = s.seq ∨ (s.seq, t.seq) ∈
      [(SeqState.idle, SeqState.startLow), (.armed, .startLow), (.done, .startLow), (.startLow, .release),
       (.release, .armed), (.armed, .ackLow), (.ackLow, .ackHigh), (.ackHigh, .bitLow), (.bitLow, .bitHigh),
       (.bitHigh, .bitLow), (.bitHigh, .checksum), (.checksum, .convert), (.convert, .done), (.ackLow, .done),
       (.ackHigh, .done), (.bitLow, .done), (.bitHigh, .done), (.checksum, .done)]) ∧
    (s.idx ≤ 39 → t.idx ≤ 39) ∧
    (t.idx = s.idx ∨ t.idx = 0 ∨ (s.seq = .bitHigh ∧ t.seq = .bitLow ∧ t.idx = s.idx + 1))

/-! ### Invariants -/

/-- The invariant holds right after reset, in every legal configuration and under every schedule. -/
def Obligations.InvHoldsAfterReset : Prop :=
  ∀ (c : Config) (feed : List Inputs) (tick : Nat), c.wf = true →
    Inv { State.reset with cfg := c, feed := feed, tick := tick }

/-- R30 and what it rests on: every step keeps the invariant. -/
def Obligations.InvIsKeptByEveryStep : Prop :=
  ∀ s t : State, Inv s → step s = .next t → Inv t

/-- R30, which the spec derives from R35 and the step rules: the nine invariants hold in every state reached from
reset, in every legal configuration, under every schedule of commands, resets and line levels. -/
def Obligations.RuleInvariantsAlwaysHold : Prop :=
  ∀ (c : Config) (feed : List Inputs) (tick k : Nat) (t : State), c.wf = true →
    stepN k { State.reset with cfg := c, feed := feed, tick := tick } = .next t → RuleInvariants t

/-- R24 to R26: under the invariant every counter fits the width the spec gives its register. -/
def Obligations.CountersFitTheirRegisters : Prop :=
  (∀ s : State, Inv s → s.hcnt < 2 ^ s.cfg.hcntBits ∧ s.pcnt < 2 ^ s.cfg.pcntBits ∧ s.idx < 2 ^ 6) ∧
  Config.default.hcntBits = 15 ∧ Config.default.pcntBits = 10
end

