-- ==== Sys2Proof/Laws/State.lean ====
section
/-! SUPPORT. One lemma per field per update of the state, so that no proof unfolds a record update. -/

namespace Sys2Proof.Machine

/-! ### `failWith` -/

@[simp] theorem failWith_seq (k : Err) (s : State) : (failWith k s).seq = .done := rfl
@[simp] theorem failWith_hcnt (k : Err) (s : State) : (failWith k s).hcnt = s.hcnt := rfl
@[simp] theorem failWith_pcnt (k : Err) (s : State) : (failWith k s).pcnt = s.pcnt := rfl
@[simp] theorem failWith_idx (k : Err) (s : State) : (failWith k s).idx = s.idx := rfl
@[simp] theorem failWith_frame (k : Err) (s : State) : (failWith k s).frame = s.frame := rfl
@[simp] theorem failWith_err (k : Err) (s : State) : (failWith k s).err = k := rfl
@[simp] theorem failWith_cfg (k : Err) (s : State) : (failWith k s).cfg = s.cfg := rfl
@[simp] theorem failWith_feed (k : Err) (s : State) : (failWith k s).feed = s.feed := rfl
@[simp] theorem failWith_tick (k : Err) (s : State) : (failWith k s).tick = s.tick := rfl

/-! ### `startIn` -/

@[simp] theorem startIn_seq (q : SeqState) (s : State) : (startIn q s).seq = q := rfl
@[simp] theorem startIn_hcnt (q : SeqState) (s : State) : (startIn q s).hcnt = 0 := rfl
@[simp] theorem startIn_pcnt (q : SeqState) (s : State) : (startIn q s).pcnt = 0 := rfl
@[simp] theorem startIn_idx (q : SeqState) (s : State) : (startIn q s).idx = 0 := rfl
@[simp] theorem startIn_frame (q : SeqState) (s : State) : (startIn q s).frame = frameClear := rfl
@[simp] theorem startIn_err (q : SeqState) (s : State) : (startIn q s).err = .none := rfl
@[simp] theorem startIn_cfg (q : SeqState) (s : State) : (startIn q s).cfg = s.cfg := rfl
@[simp] theorem startIn_feed (q : SeqState) (s : State) : (startIn q s).feed = s.feed := rfl
@[simp] theorem startIn_tick (q : SeqState) (s : State) : (startIn q s).tick = s.tick := rfl

/-! ### `chainTo` -/

@[simp] theorem chainTo_seq (q : SeqState) (s : State) : (chainTo q s).seq = q := rfl
@[simp] theorem chainTo_hcnt (q : SeqState) (s : State) : (chainTo q s).hcnt = s.hcnt := rfl
@[simp] theorem chainTo_pcnt (q : SeqState) (s : State) : (chainTo q s).pcnt = 1 := rfl
@[simp] theorem chainTo_idx (q : SeqState) (s : State) : (chainTo q s).idx = s.idx := rfl
@[simp] theorem chainTo_frame (q : SeqState) (s : State) : (chainTo q s).frame = s.frame := rfl
@[simp] theorem chainTo_err (q : SeqState) (s : State) : (chainTo q s).err = s.err := rfl
@[simp] theorem chainTo_cfg (q : SeqState) (s : State) : (chainTo q s).cfg = s.cfg := rfl
@[simp] theorem chainTo_feed (q : SeqState) (s : State) : (chainTo q s).feed = s.feed := rfl
@[simp] theorem chainTo_tick (q : SeqState) (s : State) : (chainTo q s).tick = s.tick := rfl

/-! ### `resetRegisters` -/

@[simp] theorem resetRegisters_seq (s : State) : (resetRegisters s).seq = .idle := rfl
@[simp] theorem resetRegisters_hcnt (s : State) : (resetRegisters s).hcnt = 0 := rfl
@[simp] theorem resetRegisters_pcnt (s : State) : (resetRegisters s).pcnt = 0 := rfl
@[simp] theorem resetRegisters_idx (s : State) : (resetRegisters s).idx = 0 := rfl
@[simp] theorem resetRegisters_frame (s : State) : (resetRegisters s).frame = frameClear := rfl
@[simp] theorem resetRegisters_err (s : State) : (resetRegisters s).err = .none := rfl
@[simp] theorem resetRegisters_cfg (s : State) : (resetRegisters s).cfg = s.cfg := rfl
@[simp] theorem resetRegisters_feed (s : State) : (resetRegisters s).feed = s.feed := rfl
@[simp] theorem resetRegisters_tick (s : State) : (resetRegisters s).tick = s.tick := rfl

/-! ### `advance` -/

@[simp] theorem State.advance_seq (s : State) : (s.advance).seq = s.seq := rfl
@[simp] theorem State.advance_hcnt (s : State) : (s.advance).hcnt = s.hcnt := rfl
@[simp] theorem State.advance_pcnt (s : State) : (s.advance).pcnt = s.pcnt := rfl
@[simp] theorem State.advance_idx (s : State) : (s.advance).idx = s.idx := rfl
@[simp] theorem State.advance_frame (s : State) : (s.advance).frame = s.frame := rfl
@[simp] theorem State.advance_err (s : State) : (s.advance).err = s.err := rfl
@[simp] theorem State.advance_cfg (s : State) : (s.advance).cfg = s.cfg := rfl
@[simp] theorem State.advance_feed (s : State) : (s.advance).feed = s.feed.tail := rfl
@[simp] theorem State.advance_tick (s : State) : (s.advance).tick = s.tick + 1 := rfl

/-! ### `withInputs` -/

@[simp] theorem State.withInputs_seq (s : State) (i : Inputs) : (s.withInputs i).seq = s.seq := rfl
@[simp] theorem State.withInputs_hcnt (s : State) (i : Inputs) : (s.withInputs i).hcnt = s.hcnt := rfl
@[simp] theorem State.withInputs_pcnt (s : State) (i : Inputs) : (s.withInputs i).pcnt = s.pcnt := rfl
@[simp] theorem State.withInputs_idx (s : State) (i : Inputs) : (s.withInputs i).idx = s.idx := rfl
@[simp] theorem State.withInputs_frame (s : State) (i : Inputs) : (s.withInputs i).frame = s.frame := rfl
@[simp] theorem State.withInputs_err (s : State) (i : Inputs) : (s.withInputs i).err = s.err := rfl
@[simp] theorem State.withInputs_cfg (s : State) (i : Inputs) : (s.withInputs i).cfg = s.cfg := rfl
@[simp] theorem State.withInputs_feed (s : State) (i : Inputs) : (s.withInputs i).feed = i :: s.feed.tail := rfl
@[simp] theorem State.withInputs_tick (s : State) (i : Inputs) : (s.withInputs i).tick = s.tick := rfl

end Sys2Proof.Machine
end

