-- ==== Sys2Proof/Laws/Ops.lean ====
section
/-! SUPPORT. For each shared operation, what it can do, said once; for a step, one equation and its inversion. -/

namespace Sys2Proof.Machine

/-! ### Inputs -/

@[simp] theorem inputAt_withInputs_zero (s : State) (i : Inputs) : (s.withInputs i).inputAt 0 = i := rfl

@[simp] theorem inputs_withInputs (s : State) (i : Inputs) : (s.withInputs i).inputs = i := rfl

@[simp] theorem line_withInputs (s : State) (i : Inputs) : (s.withInputs i).line = i.line := rfl

@[simp] theorem presented_withInputs (s : State) (i : Inputs) :
    (s.withInputs i).presented = if i.cmdValid then some i.cmdOp else none := rfl

@[simp] theorem advance_withInputs (s : State) (i : Inputs) : (s.withInputs i).advance = s.advance := rfl

/-- The inputs seen after a tick are those scheduled one tick later. -/
@[simp] theorem inputAt_advance (s : State) (j : Nat) : s.advance.inputAt j = s.inputAt (j + 1) := by
  rcases h : s.feed with _ | ⟨i, more⟩ <;> simp [State.inputAt, h, Nat.add_assoc, Nat.add_comm 1 j]

/-- Inputs depend on the schedule and the tick only. -/
theorem inputAt_congr {s t : State} (hf : t.feed = s.feed) (ht : t.tick = s.tick) (j : Nat) :
    t.inputAt j = s.inputAt j := by simp [State.inputAt, hf, ht]

theorem presented_eq_some {s : State} {op : BitVec 2} :
    s.presented = some op ↔ s.inputs.cmdValid = true ∧ s.inputs.cmdOp = op := by
  simp only [State.presented]; split <;> simp_all

theorem presented_eq_none {s : State} : s.presented = none ↔ s.inputs.cmdValid = false := by
  simp only [State.presented]; split <;> simp_all

/-! ### Shared operations -/

/-- A handshake phase ends when its last tick is counted, else counts one tick more. -/
theorem handshakePhase_cases (limit : Nat) (q : SeqState) (s : State) :
    (s.hcnt + 1 = limit ∧ handshakePhase limit q s = { s with seq := q, hcnt := 0 }) ∨
    (s.hcnt + 1 ≠ limit ∧ handshakePhase limit q s = { s with hcnt := s.hcnt + 1 }) := by
  unfold handshakePhase; split
  · exact .inl ⟨‹_›, rfl⟩
  · exact .inr ⟨‹_›, rfl⟩

/-- A tick of a measurement goes on, times out, or ends the pulse (`42_pulse_timer.md` R160). -/
theorem measureTick_cases (l : Bool) (k : Err) (atEdge : State → State) (s : State) :
    (s.line = l ∧ s.pcnt + 1 ≠ s.cfg.tTimeout ∧ measureTick l k atEdge s = { s with pcnt := s.pcnt + 1 }) ∨
    (s.line = l ∧ s.pcnt + 1 = s.cfg.tTimeout ∧
      measureTick l k atEdge s = { s with pcnt := s.cfg.tTimeout, err := k, seq := .done }) ∨
    (s.line ≠ l ∧ measureTick l k atEdge s = atEdge s) := by
  unfold measureTick timedOut
  by_cases hl : s.line = l
  · by_cases ht : s.pcnt + 1 = s.cfg.tTimeout
    · exact .inr (.inl ⟨hl, ht, by simp [hl, ht, failWith]⟩)
    · exact .inl ⟨hl, ht, by simp [hl, ht]⟩
  · exact .inr (.inr ⟨hl, by simp [hl]⟩)

/-- The end of a data pulse goes to CHECKSUM after index 39, else to the next bit. -/
theorem storeBit_cases (s : State) :
    (s.idx = 39 ∧ storeBit s = { s with frame := decidedFrame s, seq := .checksum, pcnt := 0 }) ∨
    (s.idx ≠ 39 ∧ storeBit s = { s with frame := decidedFrame s, seq := .bitLow, pcnt := 1, idx := s.idx + 1 }) := by
  unfold storeBit; split
  · exact .inl ⟨‹_›, rfl⟩
  · exact .inr ⟨‹_›, rfl⟩

theorem decidedFrame_eq (s : State) :
    decidedFrame s = if s.cfg.tThresh < s.pcnt then frameSetBit s.idx s.frame else s.frame := by
  simp [decidedFrame, longPulse]

/-- CHECKSUM goes to CONVERT on a match, else fails. -/
theorem checkSum_cases (s : State) :
    (s.frame.sum8 = s.frame.f4.toNat ∧ checkSum s = { s with seq := .convert }) ∨
    (s.frame.sum8 ≠ s.frame.f4.toNat ∧ checkSum s = { s with err := .checksumInvalid, seq := .done }) := by
  unfold checkSum Frame.checksumMatches
  by_cases h : s.frame.sum8 = s.frame.f4.toNat
  · exact .inl ⟨h, by simp [h]⟩
  · exact .inr ⟨h, by simp [h, failWith]⟩

/-- CONVERT ends in DONE, with OutOfRange when the bound is broken. -/
theorem checkRange_cases (s : State) :
    (s.frame.humRaw ≤ 1000 ∧ checkRange s = { s with seq := .done }) ∨
    (1000 < s.frame.humRaw ∧ checkRange s = { s with err := .outOfRange, seq := .done }) := by
  unfold checkRange Frame.humTooHigh
  by_cases h : 1000 < s.frame.humRaw
  · exact .inr ⟨h, by simp [h, failWith]⟩
  · exact .inl ⟨by omega, by simp [h]⟩

/-- No state's own step touches the configuration, the schedule or the tick count. -/
theorem ownStep_env (q : SeqState) (s : State) :
    (ownStep q s).cfg = s.cfg ∧ (ownStep q s).feed = s.feed ∧ (ownStep q s).tick = s.tick := by
  cases q with
  | idle | armed | done => simp [ownStep]
  | startLow | release =>
    rcases handshakePhase_cases s.cfg.tStartLow .release s with ⟨_, h⟩ | ⟨_, h⟩ <;>
      rcases handshakePhase_cases s.cfg.tRelease .armed s with ⟨_, h'⟩ | ⟨_, h'⟩ <;> simp [ownStep, h, h']
  | ackLow => rcases measureTick_cases false .noResponse (chainTo .ackHigh) s with ⟨_, _, h⟩ | ⟨_, _, h⟩ | ⟨_, h⟩ <;>
      simp [ownStep, h]
  | ackHigh => rcases measureTick_cases true .noResponse (chainTo .bitLow) s with ⟨_, _, h⟩ | ⟨_, _, h⟩ | ⟨_, h⟩ <;>
      simp [ownStep, h]
  | bitLow => rcases measureTick_cases false .lowPulseTimeout (chainTo .bitHigh) s with ⟨_, _, h⟩ | ⟨_, _, h⟩ | ⟨_, h⟩ <;>
      simp [ownStep, h]
  | bitHigh =>
    rcases measureTick_cases true .highPulseTimeout storeBit s with ⟨_, _, h⟩ | ⟨_, _, h⟩ | ⟨_, h⟩ <;>
      rcases storeBit_cases s with ⟨_, h'⟩ | ⟨_, h'⟩ <;> simp [ownStep, h, h']
  | checksum => rcases checkSum_cases s with ⟨_, h⟩ | ⟨_, h⟩ <;> simp [ownStep, h]
  | convert => rcases checkRange_cases s with ⟨_, h⟩ | ⟨_, h⟩ <;> simp [ownStep, h]

@[simp] theorem withInputs_withInputs (s : State) (i j : Inputs) : (s.withInputs i).withInputs j = s.withInputs j := rfl

/-- A measurement sees of the tick's inputs only the line. -/
theorem measureTick_withInputs (l : Bool) (k : Err) {atEdge : State → State} {s : State} {i : Inputs}
    (hl : i.line = s.line) (he : atEdge (s.withInputs i) = (atEdge s).withInputs i) :
    measureTick l k atEdge (s.withInputs i) = (measureTick l k atEdge s).withInputs i := by
  unfold measureTick timedOut
  by_cases h1 : s.line = l
  · by_cases h2 : s.pcnt + 1 = s.cfg.tTimeout <;> simp [hl, h1, h2] <;> rfl
  · simp [hl, h1, he]

/-- A state's own step sees of the tick's inputs only the line. -/
theorem ownStep_withInputs (q : SeqState) {s : State} {i : Inputs} (hl : i.line = s.line) :
    ownStep q (s.withInputs i) = (ownStep q s).withInputs i := by
  cases q with
  | idle | armed | done => rfl
  | startLow => by_cases h : s.hcnt + 1 = s.cfg.tStartLow <;> simp [ownStep, handshakePhase, h] <;> rfl
  | release => by_cases h : s.hcnt + 1 = s.cfg.tRelease <;> simp [ownStep, handshakePhase, h] <;> rfl
  | ackLow => exact measureTick_withInputs _ _ hl rfl
  | ackHigh => exact measureTick_withInputs _ _ hl rfl
  | bitLow => exact measureTick_withInputs _ _ hl rfl
  | bitHigh =>
    refine measureTick_withInputs _ _ hl ?_
    by_cases h : s.idx = 39 <;> simp [storeBit, h] <;> rfl
  | checksum => cases h : s.frame.checksumMatches <;> simp [ownStep, checkSum, h] <;> rfl
  | convert => cases h : s.frame.humTooHigh <;> simp [ownStep, checkRange, h] <;> rfl

/-! ### A tick -/

/-- What a tick without reset does to the registers: an accepted BEGIN or DECODE starts its phase, else the state's own
step is taken. -/
def tickEffect (s : State) : State :=
  if s.presented = some 0b01#2 ∧ s.seq.holding = true then startIn .startLow s
  else if s.presented = some 0b10#2 ∧ s.seq = .armed then startIn .ackLow s
  else ownStep s.seq s

theorem bitVec2_cases (op : BitVec 2) : op = 0b00#2 ∨ op = 0b01#2 ∨ op = 0b10#2 ∨ op = 0b11#2 := by
  revert op; decide

theorem SeqState.armed_holding : SeqState.armed.holding = true := rfl

theorem ownStep_of_holding {q : SeqState} (h : q.holding = true) (s : State) : ownStep q s = s := by
  cases q <;> simp_all [SeqState.holding, ownStep]

/-- In a legal configuration and without reset, a step is the tick's effect, then the tick passes. -/
theorem step_of_tick {s : State} (hw : s.cfg.wf = true) (hr : s.inputs.rst = false) :
    step s = .next (tickEffect s).advance := by
  rcases hp : s.presented with _ | op
  · rcases hq : s.seq <;>
      simp [step, hw, hr, fetchCode, hp, hq, SeqState.code, decode, decodeState, exec, tickEffect, ownStep,
        execStIdle, execStArmed, execStDone, holdingStep, execStStartLow, execStRelease, execStAckLow, execStAckHigh,
        execStBitLow, execStBitHigh, execStChecksum, execStConvert]
  · rcases bitVec2_cases op with rfl | rfl | rfl | rfl <;>
      simp [step, hw, hr, fetchCode, hp, decode, decodeCmd, exec, tickEffect, execCmdNop, execCmdBegin, execCmdDecode,
        execCmdRsvd]

/-- A step with reset. -/
theorem step_of_reset {s : State} (hw : s.cfg.wf = true) (hr : s.inputs.rst = true) :
    step s = .next (resetRegisters s).advance := by
  simp [step, hw, hr]

/-- Everything a step that gives a next state can be: a reset, an accepted BEGIN, an accepted DECODE, or the state's own
step. -/
theorem step_inv {s t : State} (h : step s = .next t) :
    s.cfg.wf = true ∧
    ((s.inputs.rst = true ∧ t = (resetRegisters s).advance) ∨
     (s.inputs.rst = false ∧ s.presented = some 0b01#2 ∧ s.seq.holding = true ∧ t = (startIn .startLow s).advance) ∨
     (s.inputs.rst = false ∧ s.presented = some 0b10#2 ∧ s.seq = .armed ∧ t = (startIn .ackLow s).advance) ∨
     (s.inputs.rst = false ∧ ¬(s.presented = some 0b01#2 ∧ s.seq.holding = true) ∧
      ¬(s.presented = some 0b10#2 ∧ s.seq = .armed) ∧ t = (ownStep s.seq s).advance)) := by
  by_cases hw : s.cfg.wf = true
  · refine ⟨hw, ?_⟩
    cases hr : s.inputs.rst with
    | true =>
      rw [step_of_reset hw hr] at h
      cases h
      exact .inl ⟨rfl, rfl⟩
    | false =>
      rw [step_of_tick hw hr] at h
      cases h
      unfold tickEffect
      split
      · rename_i hb
        exact .inr (.inl ⟨rfl, hb.1, hb.2, rfl⟩)
      · split
        · rename_i hd
          exact .inr (.inr (.inl ⟨rfl, hd.1, hd.2, rfl⟩))
        · exact .inr (.inr (.inr ⟨rfl, ‹_›, ‹_›, rfl⟩))
  · simp [step, hw] at h

/-! ### Runs -/

@[simp] theorem stepN_zero (s : State) : stepN 0 s = .next s := rfl

/-- The first tick of a run, then the rest. -/
theorem stepN_succ {s t : State} (k : Nat) (h : step s = .next t) : stepN (k + 1) s = stepN k t := by
  have h' : Sys2Proof.core.step s = .next t := h
  have hk := Host.Core.run.eq_2 Sys2Proof.core s k
  rw [h'] at hk
  exact hk

/-- A run in two parts. -/
theorem stepN_add {s t : State} (k m : Nat) (h : stepN k s = .next t) : stepN (k + m) s = stepN m t := by
  induction k generalizing s with
  | zero => cases h; simp
  | succ k ih =>
    cases hs : step s with
    | next u =>
      rw [stepN_succ k hs] at h
      rw [show k + 1 + m = (k + m) + 1 by omega, stepN_succ (k + m) hs]
      exact ih h
    | fault f => exact f.casesOn
    | refused r =>
      have hs' : Sys2Proof.core.step s = .refused r := hs
      have hk := Host.Core.run.eq_2 Sys2Proof.core s k
      rw [hs'] at hk
      have hc : stepN (k + 1) s = .refused r := hk
      rw [hc] at h
      cases h

/-! ### The frame buffer -/

/-- A cleared buffer holds no 1. -/
@[simp] theorem frameClear_bit (j : Nat) : frameClear.bit j = false := by
  unfold Frame.bit Frame.byte frameClear
  split <;> simp

/-- `FrameSetBit` writes one byte and leaves the other four. -/
theorem frameSetBit_byte_other (f : Frame) (idx i : Nat) (h : i ≠ idx / 8) :
    (frameSetBit idx f).byte i = f.byte i := by
  unfold frameSetBit
  generalize idx / 8 = q at h ⊢
  unfold Frame.setByte
  split <;> unfold Frame.byte <;> split <;> simp_all

/-- The byte that `FrameSetBit` writes. -/
theorem frameSetBit_byte_same (f : Frame) (idx : Nat) (h : idx < 40) :
    (frameSetBit idx f).byte (idx / 8) = f.byte (idx / 8) ||| (1#8 <<< (7 - idx % 8)) := by
  unfold frameSetBit
  have hq : idx / 8 < 5 := by omega
  generalize idx / 8 = q at hq ⊢
  match q, hq with
  | 0, _ | 1, _ | 2, _ | 3, _ | 4, _ => rfl

/-- There is no byte at an index above 4 (log 8). -/
theorem frameSetBit_out_of_range (f : Frame) (idx : Nat) (h : 40 ≤ idx) : frameSetBit idx f = f := by
  unfold frameSetBit Frame.setByte
  have hq : 5 ≤ idx / 8 := by omega
  generalize idx / 8 = q at hq ⊢
  match q, hq with
  | n + 5, _ => rfl

end Sys2Proof.Machine
end

