-- ==== Sys2Proof/Laws/PerInstr.lean ====
section
/-! SUPPORT. The per-instruction family TableRow: an instruction's code is the number of its row in opcode_table.json, read
with the row's own length (2 bits for a command, 4 for a state). -/

namespace Sys2Proof.Laws.TableRow

/-- The row of `i`, read by the decoder with the length of its format (`30_encoding.md` R90), gives `i`. -/
def Statement (i : Instr) : Prop :=
  i.wf = true ∧
  match encode i with
  | .cmd op => decodeTableWord 2 op.toNat = some i
  | .state st => decodeTableWord 4 st.toNat = some i

theorem cmdNop : Statement .cmdNop := ⟨rfl, rfl⟩
theorem cmdBegin : Statement .cmdBegin := ⟨rfl, rfl⟩
theorem cmdDecode : Statement .cmdDecode := ⟨rfl, rfl⟩
theorem cmdRsvd : Statement .cmdRsvd := ⟨rfl, rfl⟩
theorem stIdle : Statement .stIdle := ⟨rfl, rfl⟩
theorem stStartLow : Statement .stStartLow := ⟨rfl, rfl⟩
theorem stRelease : Statement .stRelease := ⟨rfl, rfl⟩
theorem stArmed : Statement .stArmed := ⟨rfl, rfl⟩
theorem stAckLow : Statement .stAckLow := ⟨rfl, rfl⟩
theorem stAckHigh : Statement .stAckHigh := ⟨rfl, rfl⟩
theorem stBitLow : Statement .stBitLow := ⟨rfl, rfl⟩
theorem stBitHigh : Statement .stBitHigh := ⟨rfl, rfl⟩
theorem stChecksum : Statement .stChecksum := ⟨rfl, rfl⟩
theorem stConvert : Statement .stConvert := ⟨rfl, rfl⟩
theorem stDone : Statement .stDone := ⟨rfl, rfl⟩

end Sys2Proof.Laws.TableRow
end

