-- ==== Sys2Proof/Tests/Slice0.lean ====
section
/-! SUPPORT. The model's own tests (expected values from `95_test_vectors.md` and the examples in the rules), the
well-formedness smoke tests, and for every statement with hypotheses a state that meets them. -/

namespace Sys2Proof.Tests

open Sys2Proof Sys2Proof.Machine

/-! ### Helpers -/

/-- The configuration of programs P6 to P8. -/
def smallCfg : Config := { tStartLow := 4, tRelease := 2, tTimeout := 8, tThresh := 3 }

/-- The least configuration of R6. -/
def leastCfg : Config := { tStartLow := 1, tRelease := 1, tTimeout := 3, tThresh := 1 }

/-- A state in the small configuration with one tick of inputs. -/
def mk (q : SeqState) (h p i : Nat) (inp : Inputs) : State :=
  { State.reset with seq := q, hcnt := h, pcnt := p, idx := i, cfg := smallCfg, feed := [inp] }

/-- The same in the default configuration. -/
def mkDefault (q : SeqState) (p i : Nat) (f : Frame) (inp : Inputs) : State :=
  { State.reset with seq := q, pcnt := p, idx := i, frame := f, feed := [inp] }

/-- The outcome is a next state that passes a check. -/
def nextIs (o : Host.Outcome State Fault Refusal) (p : State → Bool) : Bool :=
  match o with
  | .next t => p t
  | .fault _ => false
  | .refused _ => false

/-- The registers of R20 as one tuple. -/
def regs (t : State) : SeqState × Nat × Nat × Nat × Frame × Err := (t.seq, t.hcnt, t.pcnt, t.idx, t.frame, t.err)

def low : Inputs := quietInputs false
def high : Inputs := quietInputs true
def nop : Inputs := commandInputs 0b00#2 true
def begin_ : Inputs := commandInputs 0b01#2 true
def decode_ : Inputs := commandInputs 0b10#2 true
def rsvd : Inputs := commandInputs 0b11#2 true
def resetIn : Inputs := { begin_ with rst := true }

/-- `01 90 00 C8 59`, the source's example with the right checksum (S6). -/
def goodFrame : Frame := ⟨0x01, 0x90, 0x00, 0xC8, 0x59⟩

/-! ### Codes (R92, R93), each word written out -/

theorem test_decode_NOP : decode (.cmd 0b00#2) = .ok .cmdNop := by decide
theorem test_decode_BEGIN : decode (.cmd 0b01#2) = .ok .cmdBegin := by decide
theorem test_decode_DECODE : decode (.cmd 0b10#2) = .ok .cmdDecode := by decide
theorem test_decode_RSVD : decode (.cmd 0b11#2) = .ok .cmdRsvd := by decide
theorem test_decode_IDLE : decode (.state 0b0000#4) = .ok .stIdle := by decide
theorem test_decode_START_LOW : decode (.state 0b0001#4) = .ok .stStartLow := by decide
theorem test_decode_RELEASE : decode (.state 0b0010#4) = .ok .stRelease := by decide
theorem test_decode_ARMED : decode (.state 0b0011#4) = .ok .stArmed := by decide
theorem test_decode_ACK_LOW : decode (.state 0b0100#4) = .ok .stAckLow := by decide
theorem test_decode_ACK_HIGH : decode (.state 0b0101#4) = .ok .stAckHigh := by decide
theorem test_decode_BIT_LOW : decode (.state 0b0110#4) = .ok .stBitLow := by decide
theorem test_decode_BIT_HIGH : decode (.state 0b0111#4) = .ok .stBitHigh := by decide
theorem test_decode_CHECKSUM : decode (.state 0b1000#4) = .ok .stChecksum := by decide
theorem test_decode_CONVERT : decode (.state 0b1001#4) = .ok .stConvert := by decide
theorem test_decode_DONE : decode (.state 0b1010#4) = .ok .stDone := by decide
theorem test_decode_unreachable : decode (.state 0b1011#4) = .error (.unreachableState 0b1011#4) := by decide

/-- Row lengths tell the formats apart; in whole bytes 0 to 3 are commands (log 5). -/
theorem test_tableWord : decodeTableWord 2 1 = some .cmdBegin ∧ decodeTableWord 4 1 = some .stStartLow ∧
    decodeTableWord 8 1 = some .cmdBegin ∧ decodeTableWord 8 10 = some .stDone ∧ decodeTableWord 4 11 = none := by decide

/-! ### Well-formedness: each check of R6 refuses an ill-formed configuration; an instruction has nothing to check -/

theorem test_wf_default : Config.default.wf = true := by decide
theorem test_wf_refuses_tStartLow : ({ smallCfg with tStartLow := 0 }).wf = false := by decide
theorem test_wf_refuses_tRelease : ({ smallCfg with tRelease := 0 }).wf = false := by decide
theorem test_wf_refuses_tThresh : ({ smallCfg with tThresh := 0 }).wf = false := by decide
theorem test_wf_refuses_tTimeout : ({ smallCfg with tTimeout := 4 }).wf = false := by decide
theorem test_wf_instr : Instr.stBitHigh.wf = true := by decide

/-! ### One step each -/

/-- K3, and R121's example. -/
theorem test_NOP : nextIs (step (mk .idle 0 0 0 nop)) (fun t => t.seq = .idle) ∧ (out (mk .idle 0 0 0 nop)).cmdAcceptO := by
  decide

/-- K9: NOP in a busy state takes the state's own step. -/
theorem test_NOP_busy : nextIs (step (mk .startLow 1 0 0 nop)) (fun t => t.seq = .startLow ∧ t.hcnt = 2) := by decide

/-- P7 tick 20: BEGIN in DONE wipes everything. -/
theorem test_BEGIN : nextIs (step { mk .done 0 8 5 begin_ with err := .noResponse, frame := goodFrame })
    (fun t => regs t = (.startLow, 0, 0, 0, frameClear, .none)) := by decide

/-- K6: BEGIN in START_LOW is rejected and the state goes on. -/
theorem test_BEGIN_busy : nextIs (step (mk .startLow 0 0 0 begin_)) (fun t => t.seq = .startLow ∧ t.hcnt = 1) ∧
    (out (mk .startLow 0 0 0 begin_)).cmdRejectO := by decide

/-- P6 tick 16. -/
theorem test_DECODE : nextIs (step (mk .armed 0 0 0 decode_)) (fun t => regs t = (.ackLow, 0, 0, 0, frameClear, .none)) := by
  decide

/-- K1: DECODE without a handle is rejected. -/
theorem test_DECODE_idle : nextIs (step (mk .idle 0 0 0 decode_)) (fun t => t.seq = .idle) ∧
    (out (mk .idle 0 0 0 decode_)).cmdRejectO := by decide

/-- P6 tick 7. -/
theorem test_RSVD : nextIs (step (mk .armed 0 0 0 rsvd)) (fun t => t.seq = .armed) ∧ (out (mk .armed 0 0 0 rsvd)).cmdRejectO := by
  decide

/-- K4. -/
theorem test_IDLE : nextIs (step (mk .idle 0 0 0 low)) (fun t => t.seq = .idle) := by decide

/-- P6 ticks 3 and 4. -/
theorem test_START_LOW : nextIs (step (mk .startLow 2 0 0 low)) (fun t => t.seq = .startLow ∧ t.hcnt = 3) ∧
    nextIs (step (mk .startLow 3 0 0 low)) (fun t => t.seq = .release ∧ t.hcnt = 0) := by decide

/-- P6 tick 6. -/
theorem test_RELEASE : nextIs (step (mk .release 1 0 0 low)) (fun t => t.seq = .armed ∧ t.hcnt = 0) := by decide

/-- R143: the rule of ARMED takes a presented BEGIN (R122 corner case b). -/
theorem test_ARMED : nextIs (exec .stArmed (mk .armed 0 0 0 begin_)) (fun t => t.seq = .startLow) := by decide

/-- T2: result 0 in one tick. -/
theorem test_ACK_LOW_edge : nextIs (step (mkDefault .ackLow 0 0 frameClear high)) (fun t => t.seq = .ackHigh ∧ t.pcnt = 1) := by
  decide

/-- T3: the thousandth low sample is a timeout. -/
theorem test_ACK_LOW_timeout : nextIs (step (mkDefault .ackLow 999 0 frameClear low))
    (fun t => regs t = (.done, 0, 1000, 0, frameClear, .noResponse)) := by decide

/-- T7 and T8. -/
theorem test_ACK_HIGH : nextIs (step (mkDefault .ackHigh 999 0 frameClear low)) (fun t => t.seq = .bitLow ∧ t.pcnt = 1) ∧
    nextIs (step (mkDefault .ackHigh 999 0 frameClear high)) (fun t => t.seq = .done ∧ t.err = .noResponse) := by decide

/-- E8: LowPulseTimeout keeps the index. -/
theorem test_BIT_LOW : nextIs (step (mkDefault .bitLow 999 5 frameClear low))
    (fun t => regs t = (.done, 0, 1000, 5, frameClear, .lowPulseTimeout)) := by decide

/-- R184's example: at index 16 a pulse of 70 sets bit 7 of `F[2]`. -/
theorem test_BIT_HIGH_one : nextIs (step (mkDefault .bitHigh 70 16 frameClear low))
    (fun t => regs t = (.bitLow, 0, 1, 17, ⟨0, 0, 0x80, 0, 0⟩, .none)) := by decide

/-- S3: exactly the threshold is a 0; P1's last bit goes to CHECKSUM. -/
theorem test_BIT_HIGH_zero : nextIs (step (mkDefault .bitHigh 50 16 frameClear low)) (fun t => t.frame = frameClear) ∧
    nextIs (step (mkDefault .bitHigh 70 39 ⟨0x01, 0x90, 0x00, 0xC8, 0x58⟩ low))
      (fun t => regs t = (.checksum, 0, 0, 39, goodFrame, .none)) := by decide

/-- R210's examples: the right and the printed checksum. -/
theorem test_CHECKSUM : nextIs (step (mkDefault .checksum 0 39 goodFrame low)) (fun t => t.seq = .convert) ∧
    nextIs (step (mkDefault .checksum 0 39 ⟨0x01, 0x90, 0x00, 0xC8, 0xD9⟩ low))
      (fun t => t.seq = .done ∧ t.err = .checksumInvalid) := by decide

/-- S7: 1000 passes, 1001 does not. -/
theorem test_CONVERT : nextIs (step (mkDefault .convert 0 39 ⟨0x03, 0xE8, 0x00, 0xC8, 0xB3⟩ low))
      (fun t => t.seq = .done ∧ t.err = .none) ∧
    nextIs (step (mkDefault .convert 0 39 ⟨0x03, 0xE9, 0x00, 0xC8, 0xB4⟩ low))
      (fun t => t.seq = .done ∧ t.err = .outOfRange) := by decide

/-- R219's example. -/
theorem test_DONE : (out (mkDefault .done 0 39 goodFrame low)).humO = 400 ∧ (out (mkDefault .done 0 39 goodFrame low)).tempO = 200 ∧
    (out (mkDefault .done 0 39 goodFrame low)).frameO = 0x019000C859#40 := by decide

/-- V4, V7, V9: a negative temperature, negative zero, the least temperature. -/
theorem test_temperature : (⟨0x02, 0x8C, 0x80, 0x0A, 0x18⟩ : Frame).tempPort = 0xFFF6#16 ∧
    (⟨0x00, 0x64, 0x80, 0x00, 0xE4⟩ : Frame).tempPort = 0 ∧ (⟨0, 0, 0xFF, 0xFF, 0xFE⟩ : Frame).tempPort = 0x8001#16 := by
  decide

/-- S2: index 23 is bit 0 of `F[2]` and bit 16 of the port. -/
theorem test_placement : frameSetBit 23 frameClear = ⟨0, 0, 0x01, 0, 0⟩ ∧ (frameSetBit 23 frameClear).word = 0x10000#40 := by
  decide

/-- P6 tick 20: reset wins over the command and the state's step. -/
theorem test_reset : nextIs (step (mk .ackHigh 0 1 0 resetIn)) (fun t => regs t = regs State.reset) ∧
    (out (mk .ackHigh 0 1 0 resetIn)).cmdAcceptO = false := by decide

/-- R102: READ presents BEGIN, and goes on to DECODE once BEGIN is accepted. -/
theorem test_script_READ :
    (Script.tick ⟨readItems, ⟨[], true⟩, []⟩ (mk .idle 0 0 0 low)).1 = begin_ ∧
    (Script.tick ⟨readItems, ⟨[], true⟩, []⟩ (mk .idle 0 0 0 low)).2.items = [.star 0b10#2] ∧
    (Script.tick ⟨readItems, ⟨[], true⟩, []⟩ (mk .release 0 0 0 low)).2.items = readItems := by decide

/-- R101: the line track starts after the tick that accepts DECODE. -/
theorem test_script_anchor :
    (Script.tick ⟨[.command 0b10#2], ⟨[], true⟩, [⟨[(false, 2)], true⟩]⟩ (mk .armed 0 0 0 low)).2.now = ⟨[(false, 2)], true⟩ ∧
    nextSample true [(false, 0), (true, 2)] = (true, [(true, 1)]) ∧
    (trackInputs .done true [.untilDone, .reset]).1.rst = true := by decide

/-! ### The invariant is met by states in the middle of a transaction -/

theorem inv_bitHigh (p : Nat) (hp : 1 ≤ p) (hp' : p < 8) (i : Inputs) : Inv (mk .bitHigh 0 p 5 i) := by
  refine ⟨rfl, ⟨?_, ⟨?_, ?_⟩, ?_, ⟨?_, ?_, ?_⟩, ?_, ?_, ?_, ?_, ?_⟩, ?_, ⟨?_, ?_⟩, ?_⟩ <;>
    simp [mk, smallCfg, State.reset, SeqState.code] <;> first | omega | decide

theorem inv_checksum (f : Frame) (i : Inputs) : Inv { mk .checksum 0 0 39 i with frame := f } := by
  refine ⟨rfl, ⟨?_, ⟨?_, ?_⟩, ?_, ⟨?_, ?_, ?_⟩, ?_, ?_, ?_, ?_, ?_⟩, ?_, ⟨?_, ?_⟩, ?_⟩ <;>
    simp [mk, smallCfg, State.reset, SeqState.code]

theorem inv_success : Inv { mk .done 0 0 39 low with frame := goodFrame } := by
  refine ⟨by decide, ⟨?_, ⟨?_, ?_⟩, ?_, ⟨?_, ?_, ?_⟩, ?_, ?_, ?_, ?_, ?_⟩, ?_, ⟨?_, ?_⟩, ?_⟩ <;>
    first | decide | simp [mk, smallCfg, State.reset]

/-! ### Witnesses: states and operands that meet the hypotheses of a statement, clause by clause -/

theorem witness_CommandCodesAreR92 : (0b010#3).getLsbD 2 = false := by decide

theorem witness_StateCodesAreR93 : 11 ≤ (11#4).toNat ∧ (mk .bitHigh 0 4 5 low).cfg.wf = true ∧
    (mk .bitHigh 0 4 5 low).inputs.rst = false ∧ OwnInstr (mk .bitHigh 0 4 5 low) .stBitHigh := by decide

theorem witness_DecodeEncodeAgree : Instr.cmdNop.wf = true ∧ decode (.state 10#4) = .ok .stDone := by decide

theorem witness_StepRunsDecoded : (mk .bitHigh 0 4 5 low).cfg.wf = true ∧ (mk .bitHigh 0 4 5 low).inputs.rst = false ∧
    decode (fetchCode (mk .bitHigh 0 4 5 low)) = .ok .stBitHigh ∧
    nextIs (exec .stBitHigh (mk .bitHigh 0 4 5 low)) (fun t => t.idx = 6) := by decide

theorem witness_PlacedCodeRunsNext : State.reset.cfg.wf = true ∧ decodeTableWord 8 1 = some .cmdBegin ∧
    decodeTableWord 4 7 = some .stBitHigh := by decide

theorem witness_StepIsTotal : smallCfg.wf = true ∧ ¬(1 ≤ leastCfg.tStartLow ∧ 1 ≤ leastCfg.tRelease ∧ 1 ≤ leastCfg.tThresh ∧
    leastCfg.tThresh + 2 ≤ ({ leastCfg with tTimeout := 2 } : Config).tTimeout) := by decide

theorem witness_CommandRuleIsStateRule : (mk .armed 0 0 0 decode_).presented = some 0b10#2 ∧
    OwnInstr (mk .armed 0 0 0 decode_) .stArmed ∧ (mk .bitLow 0 1 0 begin_).presented = some 0b01#2 ∧
    OwnInstr (mk .bitLow 0 1 0 begin_) .stBitLow := by decide

theorem witness_ConfigurationNeverChanges : nextIs (step (mk .idle 0 0 0 resetIn)) (fun t => t.cfg = smallCfg) := by decide

theorem witness_ResetTakesPrecedence : (mk .bitHigh 0 7 39 resetIn).cfg.wf = true ∧
    (mk .bitHigh 0 7 39 resetIn).inputs.rst = true ∧ (mk .bitHigh 0 7 39 high).inputs.rst = false ∧
    OwnInstr (mk .bitHigh 0 7 39 high) .stBitHigh := by decide

theorem witness_ResetStateIsR35 : (mk .done 0 8 5 resetIn).inputs.rst = true ∧
    nextIs (step (mk .done 0 8 5 resetIn)) (fun _ => true) := by decide

theorem witness_commands_busy : (mk .bitHigh 0 7 39 nop).seq.busy = true ∧ OwnInstr (mk .bitHigh 0 7 39 nop) .stBitHigh := by
  decide

theorem witness_NopHasNoEffect : (mk .done 0 0 39 nop).seq.holding = true ∧ (mk .done 0 0 39 nop).inputs.rst = false ∧
    (mk .done 0 0 39 nop).presented = some 0b00#2 := by decide

theorem witness_BeginStartsHandshake : (mk .done 0 0 39 begin_).seq = .done ∧ (mk .done 0 0 39 begin_).inputs.rst = false ∧
    (mk .done 0 0 39 begin_).presented = some 0b01#2 := by decide

theorem witness_DecodeStartsDecoder : (mk .armed 0 0 0 decode_).seq = .armed ∧ (mk .idle 0 0 0 decode_).seq = .idle ∧
    (mk .armed 0 0 0 decode_).inputs.rst = false ∧ (mk .armed 0 0 0 decode_).presented = some 0b10#2 := by decide

theorem witness_RejectedCommandChangesNothing : (mk .idle 0 0 0 rsvd).seq.holding = true ∧
    (mk .idle 0 0 0 rsvd).presented = some 0b11#2 ∧ (mk .idle 0 0 0 rsvd).inputs.rst = false ∧
    (mk .ackLow 0 0 0 begin_).presented = some 0b01#2 ∧ (mk .ackLow 0 0 0 begin_).seq.busy = true ∧
    (mk .done 0 0 0 decode_).presented = some 0b10#2 ∧ (mk .done 0 0 0 decode_).seq ≠ .armed := by decide

theorem witness_HoldingStatesWait : (mk .idle 0 0 0 low).inputs.cmdValid = false ∧
    (mk .idle 0 0 0 nop).presented = some 0b00#2 ∧ (mk .armed 0 0 0 decode_).presented = some 0b10#2 ∧
    (mk .done 0 0 0 begin_).presented = some 0b01#2 := by decide

theorem witness_BusyStatesIgnoreCommands : (mk .checksum 0 0 39 low).seq.busy = true ∧ begin_.rst = high.rst ∧
    begin_.line = high.line ∧ begin_ ≠ high := by decide

theorem witness_CodeIgnoredWhenNotValid : low.cmdValid = false := by decide

theorem witness_BeginForgetsEarlierTransactions :
    (mk .idle 0 0 0 begin_).cfg = (mk .done 0 8 5 begin_).cfg ∧ (mk .idle 0 0 0 begin_).feed = (mk .done 0 8 5 begin_).feed ∧
    (mk .idle 0 0 0 begin_).tick = (mk .done 0 8 5 begin_).tick ∧ (mk .idle 0 0 0 begin_).seq.holding = true ∧
    (mk .done 0 8 5 begin_).seq.holding = true ∧ Presents (mk .idle 0 0 0 begin_) 0 0b01#2 ∧
    mk .idle 0 0 0 begin_ ≠ mk .done 0 8 5 begin_ := by decide

theorem witness_StartLowTick : (mk .startLow 3 0 0 low).hcnt + 1 = smallCfg.tStartLow ∧
    (mk .startLow 2 0 0 low).hcnt + 1 ≠ smallCfg.tStartLow ∧ (mk .startLow 3 0 0 low).seq = .startLow := by decide

theorem witness_ReleaseTick : (mk .release 1 0 0 low).hcnt + 1 = smallCfg.tRelease ∧
    (mk .release 0 0 0 low).hcnt + 1 ≠ smallCfg.tRelease ∧ (mk .release 1 0 0 low).seq = .release := by decide

/-- Two phases of one tick, then two ticks of waiting. -/
def handshakeWitness : State := { State.reset with cfg := leastCfg, feed := [begin_, low, high, nop, low, low] }

theorem witness_HandshakeTimeline : handshakeWitness.cfg.wf = true ∧ handshakeWitness.seq.holding = true ∧
    Presents handshakeWitness 0 0b01#2 ∧ NoReset 3 handshakeWitness ∧ NoReset 5 handshakeWitness ∧
    (∀ j, j < 2 → ¬Presents handshakeWitness (3 + j) 0b01#2 ∧ ¬Presents handshakeWitness (3 + j) 0b10#2) ∧
    leastCfg.tStartLow + leastCfg.tRelease + 1 = 3 := by decide

theorem witness_PinDriverTable : (mk .startLow 0 0 0 low).seq = .startLow ∧ (mk .release 0 0 0 low).seq = .release ∧
    (mk .armed 0 0 0 low).seq ≠ .startLow ∧ (mk .armed 0 0 0 low).seq ≠ .release := by decide

theorem witness_LineUnusedOutsideMeasurement : (mk .armed 0 0 0 low).seq.measuring = false := by decide

theorem witness_MeasurementGoesOn : (mk .ackLow 0 6 0 low).line = false ∧ (mk .ackLow 0 6 0 low).pcnt + 1 < smallCfg.tTimeout ∧
    (mk .bitHigh 0 6 0 high).line = true ∧ (mk .bitHigh 0 6 0 high).pcnt + 1 < smallCfg.tTimeout := by decide

theorem witness_MeasurementTimesOut : (mk .ackLow 0 7 0 low).line = false ∧
    (mk .ackLow 0 7 0 low).pcnt + 1 = (mk .ackLow 0 7 0 low).cfg.tTimeout ∧ (mk .bitHigh 0 7 0 high).line = true ∧
    (mk .bitHigh 0 7 0 high).pcnt + 1 = (mk .bitHigh 0 7 0 high).cfg.tTimeout := by decide

theorem witness_EdgeChainsMeasurements : (mk .ackLow 0 0 0 high).line = true ∧ (mk .ackHigh 0 7 0 low).line = false := by decide

theorem witness_DataPulseEnds : (mk .bitHigh 0 4 39 low).line = false ∧ (mk .bitHigh 0 4 39 low).idx = 39 ∧
    (mk .bitHigh 0 3 38 low).line = false ∧ (mk .bitHigh 0 3 38 low).idx ≠ 39 := by decide

theorem witness_DecidedBitIsPlaced : Inv (mk .bitHigh 0 4 5 low) ∧ (mk .bitHigh 0 4 5 low).seq = .bitHigh ∧
    (mk .bitHigh 0 4 5 low).line = false := ⟨inv_bitHigh 4 (by decide) (by decide) low, by decide, by decide⟩

theorem witness_frame_indexes : (0 : Nat) < 40 ∧ (39 : Nat) < 40 ∧ [true, false].length ≤ 40 := by decide

theorem witness_FrameIsWrittenOnlyByRule : nextIs (step (mk .bitHigh 0 4 5 low)) (fun t => t.frame = frameSetBit 5 frameClear) := by
  decide

/-- One low sample short of the timeout, and at it. -/
def countWitness : State := { mk .ackLow 0 6 0 low with feed := [low, low] }

theorem witness_MeasurementCountsSamples : countWitness.cfg.wf = true ∧ countWitness.seq.target = some false ∧
    NoReset 2 countWitness ∧ LineHolds false 0 2 countWitness ∧ countWitness.pcnt + 1 < countWitness.cfg.tTimeout ∧
    countWitness.pcnt + 2 = countWitness.cfg.tTimeout := by decide

theorem witness_SentinelIsTimeout : Inv (mk .bitHigh 0 7 5 high) ∧ (mk .bitHigh 0 7 5 high).seq.measuring = true ∧
    OwnInstr (mk .bitHigh 0 7 5 high) .stBitHigh ∧ nextIs (exec .stBitHigh (mk .bitHigh 0 7 5 high)) (fun t => t.pcnt = 8) :=
  ⟨inv_bitHigh 7 (by decide) (by decide) high, by decide, by decide, by decide⟩

/-- A line that stays high, and one that stays low, from the tick of DECODE on. -/
def stillWitness (i : Inputs) : State := { mk .armed 0 0 0 decode_ with cfg := leastCfg, feed := [decode_, i, i, i, i] }

theorem witness_StillLineGivesNoResponse :
    ((stillWitness low).cfg.wf = true ∧ (stillWitness low).seq = .armed ∧ Presents (stillWitness low) 0 0b10#2 ∧
      NoReset 4 (stillWitness low) ∧ LineHolds false 1 4 (stillWitness low)) ∧
    (NoReset 4 (stillWitness high) ∧ LineHolds true 1 4 (stillWitness high)) ∧ leastCfg.tTimeout + 1 = 4 := by decide

/-- ACK_LOW in the least configuration, on a line that shows the runs `rs` from a first high sample on. -/
def runsWitness (rs : List Nat) : State :=
  { State.reset with seq := .ackLow, cfg := leastCfg, feed := (decodeLine 0 rs ++ [true, true]).map quietInputs }

/-- The shortest decode (T9): every run one sample. -/
def shortRuns : List Nat := List.replicate 81 1

/-- A low run of bit 0 that is too long (`T_TIMEOUT` is 3). -/
def longLowRun : List Nat := [1, 3] ++ List.replicate 79 1

set_option maxRecDepth 20000 in
theorem witness_DecodeIsFunctionOfRuns : ∀ rs, rs ∈ [shortRuns, longLowRun] →
    (runsWitness rs).cfg.wf = true ∧ (runsWitness rs).seq = .ackLow ∧ (runsWitness rs).hcnt = 0 ∧
    (runsWitness rs).pcnt = 0 ∧ (runsWitness rs).idx = 0 ∧ (runsWitness rs).frame = frameClear ∧
    (runsWitness rs).err = .none ∧ rs.length = 81 ∧ (∀ r, r ∈ rs → 1 ≤ r) ∧
    NoReset ((decodeLine 0 rs).length + 2) (runsWitness rs) ∧
    (∀ j, j < (decodeLine 0 rs).length → some ((runsWitness rs).inputAt j).line = (decodeLine 0 rs)[j]?) := by decide

/-- Both branches of the statement: no timeout, and each of the three timeouts at its boundary. -/
theorem witness_DecodeIsFunctionOfRuns_branches : runsTimeout 3 0 shortRuns = none ∧
    runsTimeout 3 0 longLowRun = some .lowPulseTimeout ∧ runsTimeout 3 2 ([1, 1, 3] ++ List.replicate 78 1) = some .highPulseTimeout ∧
    runsTimeout 3 3 shortRuns = some .noResponse ∧ runsTimeout 3 0 (3 :: List.replicate 80 1) = some .noResponse := by decide

/-- DECODE accepted, and a long enough schedule without reset. -/
def endWitness : State := { mk .armed 0 0 0 decode_ with cfg := leastCfg, feed := decode_ :: List.replicate 166 low }

set_option maxRecDepth 20000 in
theorem witness_EveryDecodeEnds : endWitness.cfg.wf = true ∧ endWitness.seq = .armed ∧ Presents endWitness 0 0b10#2 ∧
    NoReset (82 * endWitness.cfg.tTimeout - 79) endWitness := by decide

theorem witness_ChecksumIsSumModulo256 : goodFrame.f0 + goodFrame.f1 + goodFrame.f2 + goodFrame.f3 = goodFrame.f4 ∧
    (0x01#8 + 0x90#8 + 0x00#8 + 0xC8#8 ≠ 0xD9#8) := by decide

theorem witness_ConvertChecksHumidity : (⟨0x03, 0xE8, 0, 0, 0⟩ : Frame).humRaw ≤ 1000 ∧
    1000 < (⟨0x03, 0xE9, 0, 0, 0⟩ : Frame).humRaw := by decide

/-- V12, V5 and V6: each clause at its boundary. -/
theorem witness_ChecksumBeforeBound :
    Inv { mk .checksum 0 0 39 low with frame := ⟨0x03, 0xE9, 0x00, 0xC8, 0xB5⟩, feed := [low, low] } ∧
    NoReset 2 { mk .checksum 0 0 39 low with frame := ⟨0x03, 0xE9, 0x00, 0xC8, 0xB5⟩, feed := [low, low] } ∧
    (⟨0x03, 0xE9, 0x00, 0xC8, 0xB5⟩ : Frame).sum8 ≠ 0xB5 ∧
    ((⟨0x03, 0xE9, 0x00, 0xC8, 0xB4⟩ : Frame).sum8 = 0xB4 ∧ 1000 < (⟨0x03, 0xE9, 0x00, 0xC8, 0xB4⟩ : Frame).humRaw) ∧
    ((⟨0x03, 0xE8, 0x00, 0xC8, 0xB3⟩ : Frame).sum8 = 0xB3 ∧ (⟨0x03, 0xE8, 0x00, 0xC8, 0xB3⟩ : Frame).humRaw ≤ 1000) :=
  ⟨inv_checksum _ low, by decide⟩

theorem witness_TemperatureAssembly : (0x80#8).getLsbD 7 = true ∧ (0x7F#8).getLsbD 7 = false := by decide

theorem witness_DataPortsAreGated : (mkDefault .done 0 39 goodFrame low).seq = .done ∧
    (mkDefault .done 0 39 goodFrame low).err = .none ∧ ¬((mkDefault .convert 0 39 goodFrame low).seq = .done) := by decide

theorem witness_ResultPortRanges : Inv { mk .done 0 0 39 low with frame := goodFrame } ∧
    (out { mk .done 0 0 39 low with frame := goodFrame }).okO = true := ⟨inv_success, by decide⟩

theorem witness_ResultPortRanges_failed : (out (mk .bitHigh 0 4 5 low)).okO = false := by decide

theorem witness_ResultIsStable : (mk .done 0 0 39 low).cfg.wf = true ∧ (mk .done 0 0 39 low).seq = .done ∧
    NoReset 3 { mk .done 0 0 39 low with feed := [low, decode_, rsvd] } ∧
    (∀ j, j < 3 → ¬Presents { mk .done 0 0 39 low with feed := [low, decode_, rsvd] } j 0b01#2) := by decide

/-- One state for each of the six failure conditions. -/
theorem witness_FailsWith :
    FailsWith (mk .ackLow 0 7 0 low) .noResponse ∧ FailsWith (mk .ackHigh 0 7 0 high) .noResponse ∧
    FailsWith (mk .bitLow 0 7 5 low) .lowPulseTimeout ∧ FailsWith (mk .bitHigh 0 7 5 high) .highPulseTimeout ∧
    FailsWith { mk .checksum 0 0 39 low with frame := ⟨0, 0, 0, 0, 1⟩ } .checksumInvalid ∧
    FailsWith { mk .convert 0 0 39 low with frame := ⟨0x03, 0xE9, 0, 0, 0⟩ } .outOfRange := by
  refine ⟨.inl ?_, .inr (.inl ?_), .inr (.inr (.inl ?_)), .inr (.inr (.inr (.inl ?_))),
    .inr (.inr (.inr (.inr (.inl ?_)))), .inr (.inr (.inr (.inr (.inr ?_))))⟩ <;> decide

theorem witness_FailureEntry : OwnInstr (mk .ackLow 0 7 0 low) .stAckLow ∧
    OwnInstr { mk .convert 0 0 39 low with frame := ⟨0x03, 0xE9, 0, 0, 0⟩ } .stConvert := by decide

theorem witness_ErrIsSetOnlyByFailure :
    nextIs (step (mk .ackLow 0 7 0 low)) (fun t => t.err = .noResponse) ∧ (mk .ackLow 0 7 0 low).inputs.rst = false ∧
    nextIs (step { mk .done 0 8 0 begin_ with err := .noResponse }) (fun t => t.err = .none) := by decide

/-- One state for each row of R251's table: the rows of the holding states and the handshake. -/
theorem witness_TransitionTable_handshake :
    (mk .idle 0 0 0 begin_).presented = some 0b01#2 ∧ (mk .armed 0 0 0 decode_).presented = some 0b10#2 ∧
    (mk .done 0 0 0 decode_).presented ≠ some 0b01#2 ∧ ¬((mk .done 0 0 0 decode_).seq = .armed) ∧
    (mk .startLow 2 0 0 low).hcnt + 1 < smallCfg.tStartLow ∧ (mk .startLow 3 0 0 low).hcnt + 1 = smallCfg.tStartLow ∧
    (mk .release 0 0 0 low).hcnt + 1 < smallCfg.tRelease ∧ (mk .release 1 0 0 low).hcnt + 1 = smallCfg.tRelease := by decide

/-- The rows of the decode: the levels and counts of the four measurement states, and both ends of the bit loop. -/
theorem witness_TransitionTable_decode :
    (∀ q : SeqState, (mk q 0 6 0 low).inputs.rst = false ∧ (mk q 0 6 0 low).line = false ∧
      (mk q 0 6 0 low).pcnt + 1 < smallCfg.tTimeout ∧ (mk q 0 7 0 low).pcnt + 1 = smallCfg.tTimeout) ∧
    (∀ q : SeqState, (mk q 0 6 0 high).line = true ∧ (mk q 0 6 0 high).pcnt + 1 < smallCfg.tTimeout ∧
      (mk q 0 7 0 high).pcnt + 1 = smallCfg.tTimeout) ∧
    (mk .bitHigh 0 4 38 low).idx < 39 ∧ (mk .bitHigh 0 4 39 low).idx = 39 ∧ smallCfg.wf = true := by
  refine ⟨?_, ?_, by decide⟩ <;> intro q <;> cases q <;> decide

/-- The rows of CHECKSUM and CONVERT. -/
theorem witness_TransitionTable_validation : goodFrame.sum8 = goodFrame.f4.toNat ∧
    (⟨0, 0, 0, 0, 1⟩ : Frame).sum8 ≠ (⟨0, 0, 0, 0, 1⟩ : Frame).f4.toNat ∧ goodFrame.humRaw ≤ 1000 ∧
    1000 < (⟨0x03, 0xE9, 0, 0, 0⟩ : Frame).humRaw := by decide

theorem witness_OnlyListedTransitions : nextIs (step (mk .bitHigh 0 4 38 low)) (fun t => t.seq = .bitLow ∧ t.idx = 39) ∧
    (mk .bitHigh 0 4 38 low).inputs.rst = false ∧ (mk .bitHigh 0 4 38 low).idx ≤ 39 := by decide

theorem witness_InvHoldsAfterReset : leastCfg.wf = true ∧ smallCfg.wf = true := by decide

theorem witness_InvIsKeptByEveryStep : Inv (mk .bitHigh 0 4 5 low) ∧ nextIs (step (mk .bitHigh 0 4 5 low)) (fun _ => true) :=
  ⟨inv_bitHigh 4 (by decide) (by decide) low, by decide⟩

theorem witness_RuleInvariantsAlwaysHold : nextIs (stepN 3 { State.reset with cfg := leastCfg, feed := [begin_, low, low], tick := 7 })
    (fun t => t.seq = .armed) := by decide

theorem witness_CountersFitTheirRegisters : Inv (mk .bitHigh 0 7 5 high) := inv_bitHigh 7 (by decide) (by decide) high

end Sys2Proof.Tests
end

section
/-! The state's family: what a step does to the configuration, what reset leaves, and when `ERR` changes. -/

namespace Sys2Proof.Machine

/-! ### The configuration -/

/-- Settles O8: none of the four things a step can be touches the configuration. -/
theorem configurationNeverChanges : Obligations.ConfigurationNeverChanges := by
  intro s t h
  obtain ⟨-, ⟨-, rfl⟩ | ⟨-, -, -, rfl⟩ | ⟨-, -, -, rfl⟩ | ⟨-, -, -, rfl⟩⟩ := step_inv h
  · exact resetRegisters_cfg s
  · exact startIn_cfg .startLow s
  · exact startIn_cfg .ackLow s
  · exact (ownStep_env s.seq s).1

/-! ### Reset -/

/-- A step with reset, inverted: whatever is presented, the registers are reset and the tick passes (R260). -/
theorem eq_of_step_of_reset {s t : State} (hr : s.inputs.rst = true) (h : step s = .next t) :
    t = (resetRegisters s).advance := by
  rw [step_of_reset (step_inv h).1 hr] at h
  cases h
  rfl

/-- The outputs of IDLE with no failure recorded: the pin released, no flag up, every data port gated (R35). -/
theorem out_of_idle {t : State} (hq : t.seq = .idle) (he : t.err = .none) :
    (out t).lineO = true ∧ (out t).lineOeO = false ∧ (out t).busyO = false ∧ (out t).armedO = false ∧
    (out t).doneO = false ∧ (out t).okO = false ∧ (out t).errO = 0 ∧ (out t).frameO = 0 ∧ (out t).humO = 0 ∧
    (out t).tempO = 0 := by
  have hok : t.ok = false := by simp [State.ok, hq]
  simp [out, gated, hok, hq, he, SeqState.lineOut, SeqState.drives, SeqState.busy, Err.code]

/-- Settles O10: `State.reset` and a step with reset write the same registers, and these give the outputs of IDLE. -/
theorem resetStateIsR35 : Obligations.ResetStateIsR35 := by
  rintro s t (rfl | ⟨hr, h⟩)
  · exact ⟨rfl, rfl, rfl, rfl, rfl, rfl, rfl, rfl, rfl, rfl, rfl, out_of_idle rfl rfl⟩
  · obtain rfl := eq_of_step_of_reset hr h
    exact ⟨rfl, rfl, rfl, rfl, rfl, rfl, rfl, rfl, rfl, rfl, rfl, out_of_idle rfl rfl⟩

/-! ### Failure conditions -/

section
variable {s : State} {k : Err}

/-- Every failure condition names one of the five kinds. -/
theorem FailsWith.ne_none (h : FailsWith s k) : k ≠ .none := by
  rcases h with ⟨-, -, -, rfl⟩ | ⟨-, -, -, rfl⟩ | ⟨-, -, -, rfl⟩ | ⟨-, -, -, rfl⟩ | ⟨-, -, rfl⟩ | ⟨-, -, rfl⟩ <;> decide

/-- A failure condition holds in a busy state only, where neither BEGIN nor DECODE is accepted. -/
theorem FailsWith.not_holding (h : FailsWith s k) : s.seq.holding = false := by
  rcases h with ⟨hq, -⟩ | ⟨hq, -⟩ | ⟨hq, -⟩ | ⟨hq, -⟩ | ⟨hq, -⟩ | ⟨hq, -⟩ <;> rw [hq] <;> rfl

theorem FailsWith.seq_ne_done (h : FailsWith s k) : s.seq ≠ .done := by
  intro hq
  simpa [hq, SeqState.holding] using h.not_holding

theorem FailsWith.seq_ne_armed (h : FailsWith s k) : s.seq ≠ .armed := by
  intro hq
  simpa [hq, SeqState.holding] using h.not_holding

end

/-! ### `ERR` in the state's own step -/

@[simp] theorem storeBit_err (s : State) : (storeBit s).err = s.err := by
  rcases storeBit_cases s with ⟨-, h⟩ | ⟨-, h⟩ <;> rw [h]

@[simp] theorem handshakePhase_err (limit : Nat) (q : SeqState) (s : State) :
    (handshakePhase limit q s).err = s.err := by
  rcases handshakePhase_cases limit q s with ⟨-, h⟩ | ⟨-, h⟩ <;> rw [h]

/-- What `t` shows of a tick that starts in `s` and clears nothing (R236): under a failure condition its kind is recorded
and `STATE` is DONE; under none `ERR` is kept. -/
def FailsOrKeepsErr (s t : State) : Prop :=
  (∀ k, FailsWith s k → t.err = k ∧ t.seq = .done) ∧ ((∀ k, ¬FailsWith s k) → t.err = s.err)

theorem failsOrKeepsErr_of_failure {s t : State} {k : Err} (hf : ∀ k', FailsWith s k' ↔ k' = k) (he : t.err = k)
    (hq : t.seq = .done) : FailsOrKeepsErr s t :=
  ⟨fun k' h => ⟨he.trans ((hf k').1 h).symm, hq⟩, fun hn => absurd ((hf k).2 rfl) (hn k)⟩

theorem failsOrKeepsErr_of_no_failure {s t : State} (hn : ∀ k, ¬FailsWith s k) (he : t.err = s.err) :
    FailsOrKeepsErr s t :=
  ⟨fun k h => absurd h (hn k), fun _ => he⟩

/-- A measurement records its kind on a timeout and otherwise keeps `ERR`, when the end of the pulse keeps it. -/
theorem measureTick_failsOrKeepsErr {l : Bool} {k : Err} {atEdge : State → State} {s : State}
    (hf : ∀ k', FailsWith s k' ↔ s.line = l ∧ s.pcnt + 1 = s.cfg.tTimeout ∧ k' = k) (he : (atEdge s).err = s.err) :
    FailsOrKeepsErr s (measureTick l k atEdge s) := by
  rcases measureTick_cases l k atEdge s with ⟨-, ht, h⟩ | ⟨hl, ht, h⟩ | ⟨hl, h⟩ <;> rw [h]
  · exact failsOrKeepsErr_of_no_failure (by simp [hf, ht]) rfl
  · exact failsOrKeepsErr_of_failure (k := k) (by simp [hf, hl, ht]) rfl rfl
  · exact failsOrKeepsErr_of_no_failure (by simp [hf, hl]) he

/-- The state's own step changes `ERR` on a failure only. -/
theorem ownStep_failsOrKeepsErr (s : State) : FailsOrKeepsErr s (ownStep s.seq s) := by
  cases hq : s.seq with
  | idle | startLow | release | armed | done =>
    exact failsOrKeepsErr_of_no_failure (by simp [FailsWith, hq]) (by simp [ownStep])
  | ackLow | ackHigh | bitLow | bitHigh => exact measureTick_failsOrKeepsErr (by simp [FailsWith, hq]) (by simp)
  | checksum =>
    rcases checkSum_cases s with ⟨hs, h⟩ | ⟨hs, h⟩ <;> rw [ownStep, h]
    · exact failsOrKeepsErr_of_no_failure (by simp [FailsWith, hq, hs]) rfl
    · exact failsOrKeepsErr_of_failure (k := .checksumInvalid) (by simp [FailsWith, hq, hs]) rfl rfl
  | convert =>
    rcases checkRange_cases s with ⟨hb, h⟩ | ⟨hb, h⟩ <;> rw [ownStep, h]
    · exact failsOrKeepsErr_of_no_failure (by simp [FailsWith, hq, hb]) rfl
    · exact failsOrKeepsErr_of_failure (k := .outOfRange) (by simp [FailsWith, hq, hb]) rfl rfl

/-! ### `ERR` in a step -/

/-- The tick clears `ERR`: reset, an accepted BEGIN or an accepted DECODE (R28). -/
def ClearsErr (s : State) : Prop :=
  s.inputs.rst = true ∨ (s.presented = some 0b01#2 ∧ s.seq.holding = true) ∨
    (s.presented = some 0b10#2 ∧ s.seq = .armed)

theorem rst_of_not_clearsErr {s : State} (h : ¬ClearsErr s) : s.inputs.rst = false :=
  Bool.eq_false_iff.2 fun hr => h (.inl hr)

/-- Under a failure condition only reset clears `ERR`. -/
theorem FailsWith.not_clearsErr {s : State} {k : Err} (h : FailsWith s k) (hr : s.inputs.rst = false) :
    ¬ClearsErr s := by
  simp [ClearsErr, hr, h.not_holding, h.seq_ne_armed]

/-- All a step can do to `ERR`. -/
theorem step_err_cases {s t : State} (h : step s = .next t) :
    (ClearsErr s ∧ t.err = .none) ∨ (¬ClearsErr s ∧ FailsOrKeepsErr s t) := by
  obtain ⟨-, ⟨hr, rfl⟩ | ⟨-, hp, hq, rfl⟩ | ⟨-, hp, hq, rfl⟩ | ⟨hr, hb, hd, rfl⟩⟩ := step_inv h
  · exact .inl ⟨.inl hr, rfl⟩
  · exact .inl ⟨.inr (.inl ⟨hp, hq⟩), rfl⟩
  · exact .inl ⟨.inr (.inr ⟨hp, hq⟩), rfl⟩
  · have hnot : ¬ClearsErr s := not_or.2 ⟨by simp [hr], not_or.2 ⟨hb, hd⟩⟩
    exact .inr ⟨hnot, ownStep_failsOrKeepsErr s⟩

section
variable {s t : State} (h : step s = .next t)
include h

theorem step_err_of_failsWith {k : Err} (hr : s.inputs.rst = false) (hf : FailsWith s k) :
    t.err = k ∧ t.seq = .done := by
  obtain ⟨hc, -⟩ | ⟨-, hk, -⟩ := step_err_cases h
  · exact absurd hc (hf.not_clearsErr hr)
  · exact hk k hf

theorem step_err_of_clearsErr (hc : ClearsErr s) : t.err = .none := by
  obtain ⟨-, he⟩ | ⟨hn, -⟩ := step_err_cases h
  · exact he
  · exact absurd hc hn

/-- A step that changes `ERR` and clears nothing met a failure condition. -/
theorem exists_failsWith_of_err_changed (hc : ¬ClearsErr s) (he : t.err ≠ s.err) : ∃ k, FailsWith s k := by
  obtain ⟨hc', -⟩ | ⟨-, -, hkeep⟩ := step_err_cases h
  · exact absurd hc' hc
  · by_contra hn
    exact he (hkeep (not_exists.1 hn))

/-- A new failure kind in `ERR` is that of a condition that held, and the step enters DONE. -/
theorem failsWith_of_err_set (hn : t.err ≠ .none) (he : t.err ≠ s.err) :
    s.inputs.rst = false ∧ FailsWith s t.err ∧ t.seq = .done ∧ s.seq ≠ .done := by
  have hc : ¬ClearsErr s := fun hc => hn (step_err_of_clearsErr h hc)
  have hr := rst_of_not_clearsErr hc
  obtain ⟨k, hf⟩ := exists_failsWith_of_err_changed h hc he
  obtain ⟨rfl, hq⟩ := step_err_of_failsWith h hr hf
  exact ⟨hr, hf, hq, hf.seq_ne_done⟩

/-- A kind that is gone was cleared: a failure would have put another in its place. -/
theorem clearsErr_of_err_cleared (hn : t.err = .none) (he : s.err ≠ .none) : ClearsErr s := by
  by_contra hc
  obtain ⟨k, hf⟩ := exists_failsWith_of_err_changed h hc fun heq => he (heq.symm.trans hn)
  have hr := rst_of_not_clearsErr hc
  exact hf.ne_none ((step_err_of_failsWith h hr hf).1.symm.trans hn)

end

/-- Settles O50: each clause is a consequence of what a step can do to `ERR` (`step_err_cases`). -/
theorem errIsSetOnlyByFailure : Obligations.ErrIsSetOnlyByFailure := by
  refine ⟨fun s t h => ⟨failsWith_of_err_set h, fun k => step_err_of_failsWith h, step_err_of_clearsErr h,
    clearsErr_of_err_cleared h⟩, fun s => rfl, ?_⟩
  decide

end Sys2Proof.Machine
end

section
/-! The memory's family: where an arrival index lies in the frame buffer and in the word of the port. -/

namespace Sys2Proof.Machine

/-- R95: `F[0]` is the top byte of the word, so byte `i` starts at bit `8 * (4 - i)`. -/
theorem Frame.word_getLsbD (f : Frame) (i r : Nat) (hi : i < 5) (hr : r < 8) :
    f.word.getLsbD (r + 8 * (4 - i)) = (f.byte i).getLsbD r := by
  -- The width is written as the sum that `++` builds, so that the library's lemma about a bit of `++` applies.
  change BitVec.getLsbD (w := 8 + 8 + 8 + 8 + 8) (f.f0 ++ f.f1 ++ f.f2 ++ f.f3 ++ f.f4) _ = _
  simp only [BitVec.getLsbD_append]
  have hpast : ∀ k, 8 ≤ k → ¬r + k < 8 := by omega
  match i, hi with
  | 0, _ | 1, _ | 2, _ | 3, _ | 4, _ => simp [Frame.byte, hr, hpast]

/-- R62: arrival index `idx` is bit `39 - idx` of the word. -/
theorem Frame.word_getLsbD_arrival (f : Frame) (idx : Nat) (h : idx < 40) :
    f.word.getLsbD (39 - idx) = f.bit idx := by
  have hpos : 39 - idx = 7 - idx % 8 + 8 * (4 - idx / 8) := by omega
  rw [hpos, f.word_getLsbD (idx / 8) (7 - idx % 8) (by omega) (by omega), Frame.bit]

/-- R33: an open gate passes the value. -/
theorem gated_of_okO {n : Nat} {s : State} (h : (out s).okO = true) (v : BitVec n) : gated s v = v :=
  if_pos h

/-- Settles O30: in the byte the placement is how a frame bit is read, in the word it is the order of the bytes
(`Frame.word_getLsbD`), and the port carries that word while the gate is open. -/
theorem arrivalIndexPlacement : Obligations.ArrivalIndexPlacement :=
  ⟨fun f idx h => ⟨rfl, f.word_getLsbD_arrival idx h⟩, fun _ h => gated_of_okO h _,
    fun _ => ⟨rfl, rfl, rfl, rfl⟩⟩

end Sys2Proof.Machine
end

section
/-! The encoding's family: the command codes and words, the state codes and the rules they select, and the ranges of the
result ports. -/

namespace Sys2Proof.Machine

/-! ### Command words -/

/-- R91: a word whose valid bit is 0 presents no command, whatever its code. -/
theorem decodeCommandWord_of_not_valid {w : BitVec 3} (h : w.getLsbD 2 = false) : decodeCommandWord w = none :=
  if_neg (Bool.eq_false_iff.1 h)

/-- Settles O1: the table's rows are the decoder's own, and a word without its valid bit is no command
(`decodeCommandWord_of_not_valid`). -/
theorem commandCodesAreR92 : Obligations.CommandCodesAreR92 :=
  ⟨rfl, rfl, rfl, rfl, rfl, rfl, rfl, rfl, fun _ => decodeCommandWord_of_not_valid⟩

/-! ### State codes -/

/-- R93, R99 (c): the codes above DONE's name no state. -/
theorem decode_state_of_unreachable :
    ∀ c : BitVec 4, 11 ≤ c.toNat → decode (.state c) = .error (.unreachableState c) := by
  decide

theorem SeqState.busy_eq_not_holding (q : SeqState) : q.busy = !q.holding := by
  cases q <;> rfl

theorem SeqState.measuring_iff (q : SeqState) :
    q.measuring = true ↔ q = .ackLow ∨ q = .ackHigh ∨ q = .bitLow ∨ q = .bitHigh := by
  cases q <;> decide

/-- The operation that a state's code selects (R93, column "rule"); tied to the decoder by `decode_code`. -/
def SeqState.instr : SeqState → Instr
  | .idle => .stIdle
  | .startLow => .stStartLow
  | .release => .stRelease
  | .armed => .stArmed
  | .ackLow => .stAckLow
  | .ackHigh => .stAckHigh
  | .bitLow => .stBitLow
  | .bitHigh => .stBitHigh
  | .checksum => .stChecksum
  | .convert => .stConvert
  | .done => .stDone

theorem decode_code (q : SeqState) : decode (.state q.code) = .ok q.instr := by
  cases q <;> rfl

theorem ownInstr_iff {s : State} {i : Instr} : OwnInstr s i ↔ s.seq.instr = i := by
  rw [OwnInstr, decode_code, Except.ok.injEq]

/-! ### The rule that `STATE` selects -/

theorem exec_instr_of_holding {q : SeqState} (h : q.holding = true) (s : State) :
    exec q.instr s = .next (holdingStep q s) := by
  cases q with
  | idle | armed | done => rfl
  | startLow | release | ackLow | ackHigh | bitLow | bitHigh | checksum | convert => cases h

theorem exec_instr_of_not_holding {q : SeqState} (h : q.holding = false) (s : State) :
    exec q.instr s = .next (ownStep q s) := by
  cases q with
  | idle | armed | done => cases h
  | startLow | release | ackLow | ackHigh | bitLow | bitHigh | checksum | convert => rfl

/-- In a holding state the rule of that state is the tick's effect: the table of R120 decides on the presented command. -/
theorem holdingStep_eq_tickEffect {s : State} (h : s.seq.holding = true) : holdingStep s.seq s = tickEffect s := by
  cases hp : s.presented with
  | none => simp [holdingStep, tickEffect, hp, ownStep_of_holding h]
  | some op =>
    rcases bitVec2_cases op with rfl | rfl | rfl | rfl <;>
      simp [holdingStep, commandEffect, accepts, tickEffect, hp, h, ownStep_of_holding h]

/-- In a busy state no command is accepted: the tick's effect is the state's own step (R120). -/
theorem tickEffect_of_not_holding {s : State} (h : s.seq.holding = false) : tickEffect s = ownStep s.seq s := by
  have harmed : s.seq ≠ .armed := fun hq => by simp [hq, SeqState.armed_holding] at h
  simp [tickEffect, h, harmed]

/-- The operation of the code in `STATE` does what a tick without reset does, a presented command included. -/
theorem exec_of_ownInstr {s : State} {i : Instr} (h : OwnInstr s i) : exec i s = .next (tickEffect s) := by
  obtain rfl := ownInstr_iff.1 h
  cases hq : s.seq.holding with
  | true => rw [exec_instr_of_holding hq, holdingStep_eq_tickEffect hq]
  | false => rw [exec_instr_of_not_holding hq, tickEffect_of_not_holding hq]

/-- Settles O2: codes and kinds are the tables' rows, and both the operation of the code in `STATE`
(`exec_of_ownInstr`) and the step (`step_of_tick`) are the tick's effect. -/
theorem stateCodesAreR93 : Obligations.StateCodesAreR93 :=
  ⟨⟨rfl, rfl, rfl⟩, ⟨rfl, rfl, rfl⟩, ⟨rfl, rfl, rfl⟩, ⟨rfl, rfl, rfl⟩, ⟨rfl, rfl, rfl⟩, ⟨rfl, rfl, rfl⟩,
    ⟨rfl, rfl, rfl⟩, ⟨rfl, rfl, rfl⟩, ⟨rfl, rfl, rfl⟩, ⟨rfl, rfl, rfl⟩, ⟨rfl, rfl, rfl⟩,
    SeqState.busy_eq_not_holding, SeqState.measuring_iff, decode_state_of_unreachable,
    fun s _ hw hr hi => ⟨tickEffect s, exec_of_ownInstr hi, step_of_tick hw hr⟩⟩

/-! ### The ranges of the result ports -/

section
variable (f : Frame)

/-- R213: the raw humidity fits its 16-bit port. -/
theorem Frame.humRaw_lt : f.humRaw < 2 ^ 16 := by
  have h0 := f.f0.isLt
  have h1 := f.f1.isLt
  unfold Frame.humRaw
  omega

/-- R214: seven bits of `F[2]` and the eight of `F[3]` make a magnitude of 15 bits. -/
theorem Frame.tmag_le : f.tmag ≤ 32767 := by
  have h2 : (f.f2 &&& 0x7F#8).toNat ≤ 127 := Nat.and_le_right
  have h3 := f.f3.isLt
  unfold Frame.tmag
  omega

/-- R214: a magnitude of 15 bits with a sign never gives -32768. -/
theorem Frame.tempVal_range : -32767 ≤ f.tempVal ∧ f.tempVal ≤ 32767 := by
  have hmag := f.tmag_le
  unfold Frame.tempVal
  split <;> omega

/-- R214: the port, read as two's complement, is the temperature. -/
theorem Frame.tempPort_toInt : f.tempPort.toInt = f.tempVal := by
  obtain ⟨hlo, hhi⟩ := f.tempVal_range
  exact BitVec.toInt_ofInt_eq_self (by decide) (by omega) (by omega)

/-- R104: the pattern of -32768 is no temperature. -/
theorem Frame.tempPort_ne_min : f.tempPort ≠ 0x8000#16 := by
  intro h
  have hmin : f.tempVal = -32768 := by rw [← f.tempPort_toInt, h]; rfl
  have hlo := f.tempVal_range.1
  omega

end

theorem okO_iff (s : State) : (out s).okO = true ↔ s.seq = .done ∧ s.err = .none := by
  simp [out, State.ok]

/-- R33: a shut gate passes 0. -/
theorem gated_of_not_okO {n : Nat} {s : State} (h : (out s).okO = false) (v : BitVec n) : gated s v = 0 :=
  if_neg (Bool.eq_false_iff.1 h)

/-- R30 (i) at the ports: a result that is shown passed the humidity bound. -/
theorem Inv.humRaw_le {s : State} (hinv : Inv s) (hok : (out s).okO = true) : s.frame.humRaw ≤ 1000 := by
  obtain ⟨-, ⟨-, -, -, -, -, -, -, -, hvalid⟩, -⟩ := hinv
  obtain ⟨hdone, hnone⟩ := (okO_iff s).1 hok
  exact (hvalid hdone hnone).2

/-- While the gate is open the humidity port shows the raw humidity untruncated. -/
theorem humO_toNat_of_okO {s : State} (h : (out s).okO = true) : (out s).humO.toNat = s.frame.humRaw := by
  rw [show (out s).humO = BitVec.ofNat 16 s.frame.humRaw from gated_of_okO h _,
    BitVec.toNat_ofNat, Nat.mod_eq_of_lt s.frame.humRaw_lt]

theorem tempO_of_okO {s : State} (h : (out s).okO = true) : (out s).tempO = s.frame.tempPort :=
  gated_of_okO h _

/-- Settles O46: the open gate shows a frame that passed the bound (`Inv.humRaw_le`) and a temperature in sign and
magnitude (`Frame.tempVal_range`); the shut gate shows 0. -/
theorem resultPortRanges : Obligations.ResultPortRanges := by
  intro s hinv
  refine ⟨fun hok => ?_, ?_, fun hok => ⟨gated_of_not_okO hok _, gated_of_not_okO hok _, gated_of_not_okO hok _⟩⟩
  · obtain ⟨hlo, hhi⟩ := s.frame.tempVal_range
    rw [humO_toNat_of_okO hok, tempO_of_okO hok, s.frame.tempPort_toInt]
    exact ⟨rfl, hinv.humRaw_le hok, rfl, hlo, hhi, gated_of_okO hok _⟩
  · cases hok : (out s).okO with
    | true => rw [tempO_of_okO hok]; exact s.frame.tempPort_ne_min
    | false => rw [show (out s).tempO = 0 from gated_of_not_okO hok _]; decide

end Sys2Proof.Machine
end

section
/-! The commands' family: the table of R120, the operations of the four commands, a rejected command and the two command
outputs. -/

namespace Sys2Proof.Machine

/-! ### The table of R120 -/

theorem SeqState.holding_eq_decide (q : SeqState) : q.holding = decide (q = .idle ∨ q = .armed ∨ q = .done) := by
  cases q <;> rfl

theorem SeqState.holding_iff {q : SeqState} : q.holding = true ↔ q = .idle ∨ q = .armed ∨ q = .done := by
  rw [q.holding_eq_decide, decide_eq_true_iff]

theorem SeqState.busy_iff_not_holding {q : SeqState} : q.busy = true ↔ q.holding = false := by
  rw [q.busy_eq_not_holding, Bool.not_eq_true']

@[simp] theorem accepts_nop (q : SeqState) : accepts q 0b00#2 = true := rfl
@[simp] theorem accepts_begin (q : SeqState) : accepts q 0b01#2 = q.holding := rfl
@[simp] theorem accepts_decode (q : SeqState) : accepts q 0b10#2 = decide (q = .armed) := rfl
@[simp] theorem accepts_rsvd (q : SeqState) : accepts q 0b11#2 = false := rfl

/-- The accepting entries of the table. -/
theorem accepts_iff {q : SeqState} {op : BitVec 2} :
    accepts q op = true ↔
      op = 0b00#2 ∨ (op = 0b01#2 ∧ (q = .idle ∨ q = .armed ∨ q = .done)) ∨ (op = 0b10#2 ∧ q = .armed) := by
  rcases bitVec2_cases op with rfl | rfl | rfl | rfl <;> simp [SeqState.holding_iff]

/-- The rejecting entries of the table. -/
theorem accepts_eq_false_iff {q : SeqState} {op : BitVec 2} :
    accepts q op = false ↔ op = 0b11#2 ∨ (op = 0b01#2 ∧ q.busy = true) ∨ (op = 0b10#2 ∧ q ≠ .armed) := by
  rcases bitVec2_cases op with rfl | rfl | rfl | rfl <;> simp [SeqState.busy_iff_not_holding]

/-! ### The command outputs -/

theorem cmdAcceptO_iff {s : State} :
    (out s).cmdAcceptO = true ↔
      s.inputs.rst = false ∧ s.inputs.cmdValid = true ∧ accepts s.seq s.inputs.cmdOp = true := by
  simp [out, cmdAccept, and_assoc]

/-- R125: a tick without reset rejects the presented command exactly when it does not accept it. -/
theorem cmdRejectO_iff {s : State} :
    (out s).cmdRejectO = true ↔ s.inputs.rst = false ∧ s.inputs.cmdValid = true ∧ (out s).cmdAcceptO = false := by
  cases hr : s.inputs.rst <;> cases hv : s.inputs.cmdValid <;> simp [out, cmdReject, cmdAccept, hr, hv]

/-- Settles O15: the accept output is the table of R120 (`accepts_iff`), the reject output its complement
(`cmdRejectO_iff`), and the other ten are functions of registers, which `withInputs` keeps. -/
theorem acceptAndRejectOutputs : Obligations.AcceptAndRejectOutputs :=
  ⟨fun _ => by rw [cmdAcceptO_iff, accepts_iff], fun _ => cmdRejectO_iff, fun _ _ => rfl⟩

section
variable {s : State} {op : BitVec 2} (hr : s.inputs.rst = false) (hp : s.presented = some op)
include hr hp

theorem cmdAcceptO_of_presented : (out s).cmdAcceptO = accepts s.seq op := by
  obtain ⟨hv, rfl⟩ := presented_eq_some.1 hp
  simp [out, cmdAccept, hr, hv]

theorem cmdRejectO_of_presented : (out s).cmdRejectO = !accepts s.seq op := by
  obtain ⟨hv, rfl⟩ := presented_eq_some.1 hp
  simp [out, cmdReject, hr, hv]

end

/-! ### The operations of the commands -/

theorem exec_cmdNop (s : State) : exec .cmdNop s = .next (ownStep s.seq s) := rfl

theorem exec_cmdRsvd (s : State) : exec .cmdRsvd s = .next (ownStep s.seq s) := rfl

theorem exec_cmdBegin (s : State) :
    exec .cmdBegin s = .next (if s.seq.holding then startIn .startLow s else ownStep s.seq s) := rfl

theorem exec_cmdBegin_of_holding {s : State} (h : s.seq.holding = true) :
    exec .cmdBegin s = .next (startIn .startLow s) := by
  rw [exec_cmdBegin, if_pos h]

theorem exec_cmdBegin_of_busy {s : State} (h : s.seq.busy = true) :
    exec .cmdBegin s = .next (ownStep s.seq s) := by
  rw [exec_cmdBegin, if_neg (Bool.eq_false_iff.1 (SeqState.busy_iff_not_holding.1 h))]

/-- In a busy state the rule that `STATE` selects is the state's own step, whatever is presented (R120). -/
theorem exec_of_ownInstr_of_busy {s : State} {i : Instr} (hb : s.seq.busy = true) (hi : OwnInstr s i) :
    exec i s = .next (ownStep s.seq s) := by
  rw [exec_of_ownInstr hi, tickEffect_of_not_holding (SeqState.busy_iff_not_holding.1 hb)]

/-- Settles O11: NOP's operation is the state's own step, which a holding state does not have (`ownStep_of_holding`), and
the table accepts NOP in every state. -/
theorem nopHasNoEffect : Obligations.NopHasNoEffect :=
  ⟨rfl, fun s hq => by rw [exec_cmdNop, ownStep_of_holding hq],
    fun s _ hb hi => ⟨ownStep s.seq s, exec_of_ownInstr_of_busy hb hi, exec_cmdNop s⟩,
    fun s hr hp => ⟨cmdAcceptO_of_presented hr hp, cmdRejectO_of_presented hr hp⟩⟩

/-! ### `BEGIN` -/

/-- The outputs of START_LOW (R122): the pin driven low, only `busy_o` up, every data port gated. -/
theorem out_of_startLow {t : State} (hq : t.seq = .startLow) (he : t.err = .none) :
    (out t).busyO = true ∧ (out t).armedO = false ∧ (out t).doneO = false ∧ (out t).okO = false ∧
    (out t).errO = 0 ∧ (out t).frameO = 0 ∧ (out t).humO = 0 ∧ (out t).tempO = 0 ∧
    (out t).lineOeO = true ∧ (out t).lineO = false := by
  have hok : t.ok = false := by simp [State.ok, hq]
  simp [out, gated, hok, hq, he, SeqState.lineOut, SeqState.drives, SeqState.busy, Err.code]

/-- Settles O12: in the three holding states BEGIN is `startIn .startLow`, in a busy state the state's own step, and the
table accepts it in the holding states only. -/
theorem beginStartsHandshake : Obligations.BeginStartsHandshake := by
  refine ⟨rfl, fun s hq => ?_, fun s hr hp => ?_, fun s i hb hi => ?_⟩
  · exact ⟨startIn .startLow s, exec_cmdBegin_of_holding (SeqState.holding_iff.2 hq), rfl, out_of_startLow rfl rfl⟩
  · rw [cmdAcceptO_of_presented hr hp, cmdRejectO_of_presented hr hp, accepts_begin, SeqState.busy_eq_not_holding]
    exact ⟨s.seq.holding_eq_decide, rfl⟩
  · exact ⟨ownStep s.seq s, exec_of_ownInstr_of_busy hb hi, exec_cmdBegin_of_busy hb⟩

/-! ### A command that is not accepted -/

/-- The tick's command inputs make no command accepted: nothing is presented, or what is presented is rejected. -/
def NoneAccepted (s : State) : Prop := ∀ op, s.presented = some op → accepts s.seq op = false

theorem noneAccepted_of_rejected {s : State} {op : BitVec 2} (hp : s.presented = some op)
    (h : accepts s.seq op = false) : NoneAccepted s := by
  intro op' hp'
  obtain rfl : op = op' := Option.some.inj (hp.symm.trans hp')
  exact h

theorem noneAccepted_of_not_valid {s : State} (h : s.inputs.cmdValid = false) : NoneAccepted s := by
  intro op hp
  simp [presented_eq_none.2 h] at hp

/-- R120, R124: with no command accepted the tick is the state's own step. -/
theorem NoneAccepted.tickEffect_eq {s : State} (h : NoneAccepted s) : tickEffect s = ownStep s.seq s := by
  have hbegin : ¬(s.presented = some 0b01#2 ∧ s.seq.holding = true) := fun ⟨hp, hq⟩ =>
    Bool.false_ne_true ((h _ hp).symm.trans hq)
  have hdecode : ¬(s.presented = some 0b10#2 ∧ s.seq = .armed) := fun ⟨hp, hq⟩ =>
    Bool.false_ne_true ((h _ hp).symm.trans (decide_eq_true hq))
  rw [tickEffect, if_neg hbegin, if_neg hdecode]

/-- `00_scope.md` R6: a configuration outside its constraints is refused. -/
theorem step_of_not_wf {s : State} (h : s.cfg.wf = false) : step s = .refused .configuration := by
  simp [step, h]

/-- Ticks that differ in their command inputs only, with no command accepted in either, take the same step. -/
theorem NoneAccepted.step_withInputs {s : State} {i : Inputs} (h : NoneAccepted s) (h' : NoneAccepted (s.withInputs i))
    (hr : s.inputs.rst = false) (hr' : i.rst = false) (hl : i.line = s.line) :
    step (s.withInputs i) = step s := by
  cases hw : s.cfg.wf with
  | false => rw [step_of_not_wf hw, step_of_not_wf (s := s.withInputs i) hw]
  | true =>
    rw [step_of_tick hw hr, step_of_tick (s := s.withInputs i) hw hr', h.tickEffect_eq, h'.tickEffect_eq,
      State.withInputs_seq, ownStep_withInputs s.seq hl, advance_withInputs]

/-- Settles O14: RSVD's operation is the state's own step; the table rejects the three cases (`accepts_eq_false_iff`), and
a tick that accepts nothing is the same with nothing presented (`NoneAccepted.step_withInputs`). -/
theorem rejectedCommandChangesNothing : Obligations.RejectedCommandChangesNothing := by
  refine ⟨rfl, fun s hq => ?_, fun s i hb hi => ?_, fun s op hr hp hcase => ?_⟩
  · rw [exec_cmdRsvd, ownStep_of_holding hq]
  · exact ⟨ownStep s.seq s, exec_of_ownInstr_of_busy hb hi, exec_cmdRsvd s⟩
  · have hrej : accepts s.seq op = false := accepts_eq_false_iff.2 hcase
    refine ⟨by rw [cmdRejectO_of_presented hr hp, hrej]; rfl, Eq.symm ?_⟩
    exact (noneAccepted_of_rejected hp hrej).step_withInputs (noneAccepted_of_not_valid rfl) hr hr rfl

end Sys2Proof.Machine
end

section
/-! The handshake's family: the table of the pin driver. -/

namespace Sys2Proof.Machine

/-! ### The pin outputs -/

/-- R144: the pin is driven in the two states of the handshake. -/
theorem SeqState.drives_eq_decide (q : SeqState) : q.drives = decide (q = .startLow ∨ q = .release) := by
  cases q <;> rfl

/-- R144: only START_LOW puts 0 on `line_o`. -/
theorem SeqState.lineOut_eq_decide (q : SeqState) : q.lineOut = decide (q ≠ .startLow) := by
  cases q <;> rfl

theorem lineOeO_eq_decide (s : State) : (out s).lineOeO = decide (s.seq = .startLow ∨ s.seq = .release) :=
  s.seq.drives_eq_decide

theorem lineO_eq_decide (s : State) : (out s).lineO = decide (s.seq ≠ .startLow) :=
  s.seq.lineOut_eq_decide

/-- Settles O23: each row reads the two pin outputs off `STATE` (`lineOeO_eq_decide`, `lineO_eq_decide`). -/
theorem pinDriverTable : Obligations.PinDriverTable := by
  intro s
  rw [lineOeO_eq_decide, lineO_eq_decide]
  refine ⟨fun hlow => ?_, fun hrel => ?_, fun hlow hrel => ?_⟩
  · simp [hlow]
  · simp [hrel]
  · simp [hlow, hrel]

end Sys2Proof.Machine
end

section
/-! The pulse timer's family: the sample of a measurement that is at the target level. -/

namespace Sys2Proof.Machine

/-! ### The measurement states -/

theorem exec_stAckLow (s : State) :
    exec .stAckLow s = .next (measureTick false .noResponse (chainTo .ackHigh) s) := rfl

theorem exec_stAckHigh (s : State) :
    exec .stAckHigh s = .next (measureTick true .noResponse (chainTo .bitLow) s) := rfl

theorem exec_stBitLow (s : State) :
    exec .stBitLow s = .next (measureTick false .lowPulseTimeout (chainTo .bitHigh) s) := rfl

theorem exec_stBitHigh (s : State) :
    exec .stBitHigh s = .next (measureTick true .highPulseTimeout storeBit s) := rfl

/-! ### A sample at the target level -/

/-- R161: a sample at the target level that does not reach the timeout is counted, whatever the kind of the timeout and
the end of the pulse are. -/
theorem measureTick_of_not_timedOut {l : Bool} {s : State} (hl : s.line = l) (ht : s.pcnt + 1 ≠ s.cfg.tTimeout)
    (k : Err) (atEdge : State → State) : measureTick l k atEdge s = { s with pcnt := s.pcnt + 1 } := by
  obtain ⟨-, -, h⟩ | ⟨-, ht', -⟩ | ⟨hl', -⟩ := measureTick_cases l k atEdge s
  · exact h
  · exact absurd ht' ht
  · exact absurd hl hl'

/-- Settles O25: each measurement state is a `measureTick`, and a count below the timeout has not reached it
(`measureTick_of_not_timedOut`). -/
theorem measurementGoesOn : Obligations.MeasurementGoesOn := by
  refine ⟨fun s hl ht => ?_, fun s hl ht => ?_⟩
  · rw [exec_stAckLow, exec_stBitLow]
    simp only [measureTick_of_not_timedOut hl ht.ne, and_self]
  · rw [exec_stAckHigh, exec_stBitHigh]
    simp only [measureTick_of_not_timedOut hl ht.ne, and_self]

end Sys2Proof.Machine
end

section
/-! The family of checksum and conversion: the checksum in 8-bit arithmetic, the humidity and the temperature read from
the frame, and the gate of the data ports. -/

namespace Sys2Proof.Machine

section
variable (f : Frame)

/-! ### The checksum -/

/-- R211: four bytes of at most 255 each. -/
theorem Frame.trueSum_le : f.f0.toNat + f.f1.toNat + f.f2.toNat + f.f3.toNat ≤ 1020 := by
  have h0 := f.f0.isLt
  have h1 := f.f1.isLt
  have h2 := f.f2.isLt
  have h3 := f.f3.isLt
  omega

/-- R211: a register that wraps at each addition holds the true sum modulo 256. -/
theorem Frame.wrappingSum_toNat : (f.f0 + f.f1 + f.f2 + f.f3).toNat = f.sum8 := by
  simp only [BitVec.toNat_add, Nat.mod_add_mod, Frame.sum8]

/-- R211: the checksum test may be made on the bytes themselves. -/
theorem Frame.wrappingSum_eq_iff : f.f0 + f.f1 + f.f2 + f.f3 = f.f4 ↔ f.sum8 = f.f4.toNat := by
  rw [← BitVec.toNat_inj, f.wrappingSum_toNat]

end

theorem exec_stChecksum (s : State) : exec .stChecksum s = .next (checkSum s) := rfl

/-- R210: a match goes on to the range check. -/
theorem checkSum_of_match {s : State} (h : s.frame.sum8 = s.frame.f4.toNat) :
    checkSum s = { s with seq := .convert } := by
  obtain ⟨-, hs⟩ | ⟨hne, -⟩ := checkSum_cases s
  · exact hs
  · exact absurd h hne

/-- R210: a mismatch is a failure. -/
theorem checkSum_of_mismatch {s : State} (h : s.frame.sum8 ≠ s.frame.f4.toNat) :
    checkSum s = { s with err := .checksumInvalid, seq := .done } := by
  obtain ⟨heq, -⟩ | ⟨-, hs⟩ := checkSum_cases s
  · exact absurd heq h
  · exact hs

/-- Settles O39: the 8-bit sum is `sum8` (`Frame.wrappingSum_toNat`), on which `checkSum` decides. -/
theorem checksumIsSumModulo256 : Obligations.ChecksumIsSumModulo256 := by
  refine ⟨fun f => ⟨f.trueSum_le, f.wrappingSum_toNat⟩, fun s h => ?_, fun s h => ?_⟩
  · rw [exec_stChecksum, checkSum_of_match (s.frame.wrappingSum_eq_iff.1 h)]
  · rw [exec_stChecksum, checkSum_of_mismatch (mt s.frame.wrappingSum_eq_iff.2 h)]

/-! ### The humidity -/

/-- R96: two bytes side by side, as a shift and an OR of the widened bytes. -/
theorem append_bytes_eq_or (a b : Byte) : a ++ b = (a.setWidth 16 <<< 8) ||| b.setWidth 16 := by
  rw [BitVec.append_def, BitVec.shiftLeftZeroExtend_eq, BitVec.setWidth'_eq]

/-- R96, R213: the number of two bytes side by side is big-endian. -/
theorem toNat_append_bytes (a b : Byte) : (a ++ b).toNat = a.toNat * 256 + b.toNat := by
  rw [BitVec.toNat_append, ← Nat.shiftLeft_add_eq_or_of_lt b.isLt, Nat.shiftLeft_eq]

/-- R213: the 16-bit humidity is `F[0]` over `F[1]`. -/
theorem Frame.ofNat_humRaw (f : Frame) : BitVec.ofNat 16 f.humRaw = f.f0 ++ f.f1 := by
  rw [Frame.humRaw, ← toNat_append_bytes, BitVec.ofNat_toNat, BitVec.setWidth_eq]

/-- Settles O42: the 16-bit humidity is the two bytes side by side (`Frame.ofNat_humRaw`). -/
theorem humidityAssembly : Obligations.HumidityAssembly := fun f =>
  ⟨rfl, Nat.le_of_lt_succ f.humRaw_lt, by rw [f.ofNat_humRaw, append_bytes_eq_or]⟩

/-! ### The temperature -/

section
variable (f : Frame)

theorem Frame.tempVal_of_negative (h : f.tsign = true) : f.tempVal = -(f.tmag : Int) := if_pos h

theorem Frame.tempVal_of_nonnegative (h : f.tsign = false) : f.tempVal = (f.tmag : Int) :=
  if_neg (Bool.eq_false_iff.1 h)

/-- R214: below zero the port is `low16(65536 - tmag)`. -/
theorem Frame.tempPort_of_negative (h : f.tsign = true) : f.tempPort = BitVec.ofNat 16 (65536 - f.tmag) := by
  have hmag := f.tmag_le
  calc f.tempPort
    _ = -BitVec.ofNat 16 f.tmag := by
      rw [Frame.tempPort, f.tempVal_of_negative h, BitVec.ofInt_neg, BitVec.ofInt_natCast]
    _ = BitVec.ofNat 16 65536 - BitVec.ofNat 16 f.tmag := (BitVec.zero_sub _).symm
    _ = BitVec.ofNat 16 (65536 - f.tmag) := BitVec.ofNat_sub_ofNat_of_le _ _ (by omega) (by omega)

/-- R214: from zero up the port is the magnitude. -/
theorem Frame.tempPort_of_nonnegative (h : f.tsign = false) : f.tempPort = BitVec.ofNat 16 f.tmag := by
  rw [Frame.tempPort, f.tempVal_of_nonnegative h, BitVec.ofInt_natCast]

/-- R214: `F[2] = 0x80` is the sign flag alone, so the magnitude is `F[3]`. -/
theorem Frame.tmag_of_signOnly (h : f.f2 = 0x80#8) : f.tmag = f.f3.toNat := by
  simp [Frame.tmag, h]

theorem Frame.tsign_of_signOnly (h : f.f2 = 0x80#8) : f.tsign = true := by
  simp [Frame.tsign, h]

end

/-- Settles O43: each sign has its value and its port; the port reads back as the value (`Frame.tempPort_toInt`), and the
rule's example is the sign flag alone over a magnitude of 10. -/
theorem temperatureAssembly : Obligations.TemperatureAssembly := by
  refine ⟨fun f => ?_, fun f h2 h3 => ?_⟩
  · obtain ⟨hlo, hhi⟩ := f.tempVal_range
    exact ⟨rfl, f.tmag_le, fun h => ⟨f.tempVal_of_negative h, f.tempPort_of_negative h⟩,
      fun h => ⟨f.tempVal_of_nonnegative h, f.tempPort_of_nonnegative h⟩, hlo, hhi, f.tempPort_toInt⟩
  · have hmag : f.tmag = 10 := by rw [f.tmag_of_signOnly h2, h3]; rfl
    have hsign := f.tsign_of_signOnly h2
    rw [f.tempVal_of_negative hsign, f.tempPort_of_negative hsign, hmag]
    exact ⟨rfl, rfl, rfl⟩

/-- Settles O44: the flag alone over a zero byte is a magnitude of 0, whose negative is 0. -/
theorem noNegativeZero : Obligations.NoNegativeZero := by
  intro f h2 h3
  have hmag : f.tmag = 0 := by rw [f.tmag_of_signOnly h2, h3]; rfl
  have hsign := f.tsign_of_signOnly h2
  rw [f.tempVal_of_negative hsign, f.tempPort_of_negative hsign, hmag]
  exact ⟨hsign, rfl, rfl, rfl⟩

/-! ### The gate of the data ports -/

theorem okO_eq_false_iff (s : State) : (out s).okO = false ↔ ¬(s.seq = .done ∧ s.err = .none) := by
  rw [← okO_iff, Bool.not_eq_true]

/-- Settles O45: the three data ports pass through one gate, open (`gated_of_okO`) exactly in DONE without failure. -/
theorem dataPortsAreGated : Obligations.DataPortsAreGated := by
  refine ⟨fun s hdone hnone => ?_, fun s h => ?_⟩
  · have hok := (okO_iff s).2 ⟨hdone, hnone⟩
    exact ⟨gated_of_okO hok _, gated_of_okO hok _, tempO_of_okO hok⟩
  · have hok := (okO_eq_false_iff s).2 h
    exact ⟨gated_of_not_okO hok _, gated_of_not_okO hok _, gated_of_not_okO hok _⟩

end Sys2Proof.Machine
end

section
/-! The exceptions' family: the entry of every failure kind, its registers, its outputs and the pin. -/

namespace Sys2Proof.Machine

/-! ### The state's own step under a failure condition -/

/-- R162: the sample that reaches the timeout at the target level is a failure of the measurement's kind, whatever the end
of the pulse is. -/
theorem measureTick_of_timedOut {l : Bool} {s : State} (hl : s.line = l) (ht : s.pcnt + 1 = s.cfg.tTimeout)
    (k : Err) (atEdge : State → State) :
    measureTick l k atEdge s = { s with pcnt := s.cfg.tTimeout, err := k, seq := .done } := by
  obtain ⟨-, ht', -⟩ | ⟨-, -, h⟩ | ⟨hl', -⟩ := measureTick_cases l k atEdge s
  · exact absurd ht ht'
  · exact h
  · exact absurd hl hl'

/-- R212: a humidity over the bound is a failure. -/
theorem checkRange_of_tooHigh {s : State} (h : 1000 < s.frame.humRaw) :
    checkRange s = { s with err := .outOfRange, seq := .done } := by
  obtain ⟨hle, -⟩ | ⟨-, hs⟩ := checkRange_cases s
  · exact absurd h hle.not_gt
  · exact hs

/-- The registers after `fail k` in the state of `s` (R236): `PCNT` is written by a timeout only, which is a failure of a
measurement state. -/
def failureEntered (k : Err) (s : State) : State :=
  { s with err := k, seq := .done, pcnt := if s.seq.measuring then s.cfg.tTimeout else s.pcnt }

section
variable {s : State} {k : Err} (h : FailsWith s k)
include h

/-- R236: under each of the six failure conditions the state's own step enters the failure. -/
theorem FailsWith.ownStep_eq : ownStep s.seq s = failureEntered k s := by
  unfold failureEntered
  obtain ⟨hq, hl, ht, rfl⟩ | ⟨hq, hl, ht, rfl⟩ | ⟨hq, hl, ht, rfl⟩ | ⟨hq, hl, ht, rfl⟩ | ⟨hq, hs, rfl⟩ |
    ⟨hq, hb, rfl⟩ := h <;> rw [hq]
  · exact measureTick_of_timedOut hl ht _ _
  · exact measureTick_of_timedOut hl ht _ _
  · exact measureTick_of_timedOut hl ht _ _
  · exact measureTick_of_timedOut hl ht _ _
  · exact checkSum_of_mismatch hs
  · exact checkRange_of_tooHigh hb

/-- R236: a failure is found in a state that leaves the pin an input. -/
theorem FailsWith.lineOeO_eq : (out s).lineOeO = false := by
  rw [lineOeO_eq_decide]
  obtain ⟨hq, -⟩ | ⟨hq, -⟩ | ⟨hq, -⟩ | ⟨hq, -⟩ | ⟨hq, -⟩ | ⟨hq, -⟩ := h <;> rw [hq] <;> rfl

end

/-! ### The outputs after a failure -/

/-- The outputs of DONE with a failure recorded: the kind is shown, every data port is gated, the pin is an input
(R236). -/
theorem out_of_done_of_failure {t : State} (hq : t.seq = .done) (he : t.err ≠ .none) :
    (out t).doneO = true ∧ (out t).okO = false ∧ (out t).errO = t.err.code ∧ (out t).busyO = false ∧
    (out t).frameO = 0 ∧ (out t).humO = 0 ∧ (out t).tempO = 0 ∧ (out t).lineOeO = false := by
  have hok : (out t).okO = false := (okO_eq_false_iff t).2 fun h => he h.2
  refine ⟨decide_eq_true hq, hok, rfl, ?_, gated_of_not_okO hok _, gated_of_not_okO hok _, gated_of_not_okO hok _, ?_⟩
  · simp [out, hq, SeqState.busy]
  · simp [lineOeO_eq_decide, hq]

/-- Settles O49: a failure condition holds in a busy state only, whose rule is its own step; that step enters the failure
(`FailsWith.ownStep_eq`), and DONE with a kind recorded has these outputs (`out_of_done_of_failure`). -/
theorem failureEntry : Obligations.FailureEntry := by
  intro s k i hf hi
  have hexec : exec i s = .next (failureEntered k s) := by
    rw [exec_of_ownInstr hi, tickEffect_of_not_holding hf.not_holding, hf.ownStep_eq]
  obtain ⟨hdone, hok, herr, hbusy, hframe, hhum, htemp, hpin⟩ :=
    out_of_done_of_failure (t := failureEntered k s) rfl hf.ne_none
  exact ⟨failureEntered k s, hexec, rfl, hdone, hok, herr, hbusy, hframe, hhum, htemp, hf.lineOeO_eq, hpin⟩

end Sys2Proof.Machine
end

section
/-! The reset's family: a tick with reset against every other input of it. -/

namespace Sys2Proof.Machine

/-! ### The command outputs under reset -/

/-- R260: a tick with reset neither accepts nor rejects what is presented. -/
theorem cmdOutputs_of_reset {s : State} (hr : s.inputs.rst = true) :
    (out s).cmdAcceptO = false ∧ (out s).cmdRejectO = false := by
  have hrst : ¬s.inputs.rst = false := (Bool.not_eq_false _).mpr hr
  exact ⟨Bool.eq_false_iff.2 fun h => hrst (cmdAcceptO_iff.1 h).1,
    Bool.eq_false_iff.2 fun h => hrst (cmdRejectO_iff.1 h).1⟩

/-- Settles O9: with reset the step is the reset of the registers (`step_of_reset`) and both command outputs are 0;
without it both the operation of the code in `STATE` (`exec_of_ownInstr`) and the step (`step_of_tick`) are the tick's
effect. -/
theorem resetTakesPrecedence : Obligations.ResetTakesPrecedence :=
  ⟨fun _ hw hr => ⟨step_of_reset hw hr, cmdOutputs_of_reset hr⟩,
    fun s _ hw hr hi => ⟨tickEffect s, exec_of_ownInstr hi, step_of_tick hw hr⟩⟩

end Sys2Proof.Machine
end

section
/-! The frame buffer: the bit that is set, the bit that a pulse decides, and the buffer as a shift register. -/

namespace Sys2Proof.Machine

/-! ### One bit -/

/-- R65: the OR of one bit into its byte sets the bit with that arrival index and no other. -/
theorem frameSetBit_bit {idx j : Nat} (f : Frame) (hi : idx < 40) :
    (frameSetBit idx f).bit j = (decide (j = idx) || f.bit j) := by
  unfold Frame.bit
  by_cases hb : j / 8 = idx / 8
  · have hbit : (1#8 <<< (7 - idx % 8)).getLsbD (7 - j % 8) = decide (j = idx) := by
      rw [BitVec.getLsbD_shiftLeft, BitVec.getLsbD_one, Bool.eq_iff_iff]
      simp only [Bool.and_eq_true, Bool.not_eq_true', decide_eq_true_eq, decide_eq_false_iff_not]
      omega
    rw [hb, frameSetBit_byte_same f idx hi, BitVec.getLsbD_or, hbit, Bool.or_comm]
  · have hne : j ≠ idx := fun h => hb (h ▸ rfl)
    rw [frameSetBit_byte_other f idx _ hb, decide_eq_false hne, Bool.false_or]

/-- Settles O31. -/
theorem setBitChangesOneBit : Obligations.SetBitChangesOneBit :=
  fun f _ _ hi _ => frameSetBit_bit f hi

/-- R185, R186: the decision of a pulse leaves every bit but the one at `IDX`, which it sets on a long pulse. -/
theorem decidedFrame_bit {s : State} (hi : s.idx < 40) (j : Nat) :
    (decidedFrame s).bit j = (decide (j = s.idx ∧ s.cfg.tThresh < s.pcnt) || s.frame.bit j) := by
  rw [decidedFrame_eq]
  split
  · next hlong => simp [frameSetBit_bit s.frame hi, hlong]
  · next hshort => simp [hshort]

theorem decidedFrame_zeroFrom {s : State} (hi : s.idx < 40) (h : s.frame.ZeroFrom s.idx) :
    (decidedFrame s).ZeroFrom (s.idx + 1) := by
  intro j hj hle
  have hne : j ≠ s.idx := by omega
  simp [decidedFrame_bit hi, hne, h j hj (by omega)]

/-! ### The buffer as a shift register -/

/-- The bit at arrival index `n + i` is decided by entry `i` of the list; no other bit changes. -/
theorem assembled_bit {n j : Nat} (bits : List Bool) (f : Frame) (hn : n + bits.length ≤ 40) :
    (assembled n bits f).bit j = (f.bit j || (decide (n ≤ j) && bits.getD (j - n) false)) := by
  induction bits generalizing n f with
  | nil => simp [assembled]
  | cons b more ih =>
    rw [List.length_cons] at hn
    have hhead : (if b then frameSetBit n f else f).bit j = (f.bit j || (decide (j = n) && b)) := by
      cases b
      · simp
      · simp [frameSetBit_bit f (show n < 40 by omega), Bool.or_comm]
    rw [assembled, ih _ (by omega), hhead, Bool.or_assoc]
    rcases Nat.lt_trichotomy j n with hlt | rfl | hgt
    · simp [show ¬n ≤ j by omega, show ¬n + 1 ≤ j by omega, hlt.ne]
    · simp
    · obtain ⟨d, rfl⟩ := Nat.exists_eq_add_of_lt hgt
      simp [show n + d + 1 - n = d + 1 by omega, show n + d + 1 - (n + 1) = d by omega, show n ≤ n + d + 1 by omega,
        show n + d + 1 ≠ n by omega]

theorem assembled_frameClear_bit {bits : List Bool} (h : bits.length ≤ 40) (j : Nat) :
    (assembled 0 bits frameClear).bit j = bits.getD j false := by
  simp [assembled_bit bits frameClear (n := 0) (by omega)]

theorem shiftedIn_concat (bits : List Bool) (b : Bool) :
    shiftedIn (bits ++ [b]) = (shiftedIn bits <<< 1) ||| (if b then 1#40 else 0#40) := by
  simp [shiftedIn]

/-- The last bit shifted in is bit 0 of the register. -/
theorem shiftedIn_getLsbD {k : Nat} (bits : List Bool) (hk : k < 40) :
    (shiftedIn bits).getLsbD k = bits.reverse.getD k false := by
  induction bits using List.reverseRecOn generalizing k with
  | nil => simp [shiftedIn]
  | append_singleton bits b ih =>
    rw [shiftedIn_concat, BitVec.getLsbD_or, BitVec.getLsbD_shiftLeft, List.reverse_append]
    cases k with
    | zero => cases b <;> simp
    | succ k => cases b <;> simp [ih (show k < 40 by omega), hk]

/-- Settles O32: bit `39 - i` of either word is entry `i` of the list. -/
theorem bufferIsShiftRegister : Obligations.BufferIsShiftRegister := by
  intro bits hlen
  refine BitVec.eq_of_getLsbD_eq fun k hk => ?_
  obtain ⟨i, hi, rfl⟩ : ∃ i, i < 40 ∧ k = 39 - i := ⟨39 - k, by omega, by omega⟩
  rw [Frame.word_getLsbD_arrival _ i hi, assembled_frameClear_bit hlen, BitVec.getLsbD_shiftLeft]
  by_cases hin : i < bits.length
  · have hpast : ¬39 - i < 40 - bits.length := by omega
    rw [shiftedIn_getLsbD bits (by omega), List.getD_eq_getElem _ _ hin,
      List.getD_eq_getElem _ _ (by rw [List.length_reverse]; omega), List.getElem_reverse]
    simp [hk, hpast, show bits.length - 1 - (39 - i - (40 - bits.length)) = i by omega]
  · have hpast : 39 - i < 40 - bits.length := by omega
    rw [List.getD_eq_default _ _ (Nat.le_of_not_lt hin)]
    simp [hpast]

end Sys2Proof.Machine
end

section
/-! The measurements: the four measurement states as one operation with its target, its kind and its end of pulse. -/

namespace Sys2Proof.Machine

/-! ### The measurement states as one operation -/

/-- What the end of the pulse does in a measurement state (R163, R184); tied to the state's own step by
`ownStep_of_target`. -/
def SeqState.atEdge : SeqState → State → State
  | .ackLow => chainTo .ackHigh
  | .ackHigh => chainTo .bitLow
  | .bitLow => chainTo .bitHigh
  | .bitHigh => storeBit
  | .idle | .startLow | .release | .armed | .checksum | .convert | .done => id

theorem ownStep_of_target {q : SeqState} {l : Bool} (h : q.target = some l) (s : State) :
    ownStep q s = measureTick l q.timeoutKind q.atEdge s := by
  cases q <;> cases h <;> rfl

theorem SeqState.measuring_iff_target {q : SeqState} : q.measuring = true ↔ ∃ l, q.target = some l := by
  cases q <;> simp [SeqState.measuring, SeqState.target]

theorem SeqState.holding_of_measuring {q : SeqState} (h : q.measuring = true) : q.holding = false := by
  rcases q.measuring_iff.1 h with rfl | rfl | rfl | rfl <;> rfl

/-- R163: a sample off the target level ends the pulse, whatever was counted. -/
theorem measureTick_of_edge {l : Bool} {s : State} (hl : s.line ≠ l) (k : Err) (atEdge : State → State) :
    measureTick l k atEdge s = atEdge s :=
  if_neg hl

/-- In a measurement state the state's own step counts a sample, times out, or ends the pulse. -/
theorem ownStep_measuring_cases {s : State} (hm : s.seq.measuring = true) :
    (s.pcnt + 1 ≠ s.cfg.tTimeout ∧ ownStep s.seq s = { s with pcnt := s.pcnt + 1 }) ∨
    ownStep s.seq s = { s with pcnt := s.cfg.tTimeout, err := s.seq.timeoutKind, seq := .done } ∨
    ownStep s.seq s = s.seq.atEdge s := by
  obtain ⟨l, hl⟩ := SeqState.measuring_iff_target.1 hm
  rw [ownStep_of_target hl]
  obtain ⟨-, ht, h⟩ | ⟨-, -, h⟩ | ⟨-, h⟩ := measureTick_cases l s.seq.timeoutKind s.seq.atEdge s
  · exact .inl ⟨ht, h⟩
  · exact .inr (.inl h)
  · exact .inr (.inr h)

/-! ### The end of a data pulse -/

theorem storeBit_of_last {s : State} (h : s.idx = 39) :
    storeBit s = { s with frame := decidedFrame s, seq := .checksum, pcnt := 0 } :=
  if_pos h

theorem storeBit_of_not_last {s : State} (h : s.idx ≠ 39) :
    storeBit s = { s with frame := decidedFrame s, seq := .bitLow, pcnt := 1, idx := s.idx + 1 } :=
  if_neg h

/-! ### The operations of the measurement states -/

/-- Settles O26: the sample that reaches the timeout fails with the kind of the state's `measureTick`
(`measureTick_of_timedOut`). -/
theorem measurementTimesOut : Obligations.MeasurementTimesOut := by
  refine ⟨fun s hl ht => ?_, fun s hl ht => ?_⟩
  · rw [exec_stAckLow, exec_stBitLow]
    simp only [measureTick_of_timedOut hl ht, and_self]
  · rw [exec_stAckHigh, exec_stBitHigh]
    simp only [measureTick_of_timedOut hl ht, and_self]

/-- Settles O27: off the target level a `measureTick` is its end of pulse, here the chaining to the next state. -/
theorem edgeChainsMeasurements : Obligations.EdgeChainsMeasurements := by
  refine ⟨fun s hl => ?_, fun s hl => ?_⟩
  · rw [exec_stAckLow, exec_stBitLow]
    simp only [measureTick_of_edge (show s.line ≠ false by simp [hl])]
    exact ⟨rfl, rfl⟩
  · rw [exec_stAckHigh, measureTick_of_edge (by simp [hl])]
    rfl

theorem exec_stBitHigh_of_edge {s : State} (hl : s.line = false) : exec .stBitHigh s = .next (storeBit s) := by
  rw [exec_stBitHigh, measureTick_of_edge (by simp [hl])]

/-- Settles O28: off the target level BIT_HIGH stores its bit, the last one on the way to CHECKSUM. -/
theorem dataPulseEnds : Obligations.DataPulseEnds := by
  refine ⟨fun s hl hi => ?_, fun s hl hi => ?_⟩
  · rw [exec_stBitHigh_of_edge hl, storeBit_of_last hi, decidedFrame_eq, hi]
  · rw [exec_stBitHigh_of_edge hl, storeBit_of_not_last hi, decidedFrame_eq]

/-! ### The state after the end of a pulse -/

@[simp] theorem SeqState.atEdge_err (q : SeqState) (s : State) : (q.atEdge s).err = s.err := by
  cases q <;> simp [SeqState.atEdge]

section
variable {q : SeqState} (hm : q.measuring = true) (s : State)
include hm

/-- R164: the next measurement has at most one sample counted. -/
theorem SeqState.atEdge_pcnt_le : (q.atEdge s).pcnt ≤ 1 := by
  rcases q.measuring_iff.1 hm with rfl | rfl | rfl | rfl
  · exact le_rfl
  · exact le_rfl
  · exact le_rfl
  · rcases storeBit_cases s with ⟨-, h⟩ | ⟨-, h⟩ <;> simp [SeqState.atEdge, h]

theorem SeqState.atEdge_seq_ne_done : (q.atEdge s).seq ≠ .done := by
  rcases q.measuring_iff.1 hm with rfl | rfl | rfl | rfl
  · exact SeqState.noConfusion
  · exact SeqState.noConfusion
  · exact SeqState.noConfusion
  · rcases storeBit_cases s with ⟨-, h⟩ | ⟨-, h⟩ <;> simp [SeqState.atEdge, h]

theorem SeqState.timeoutKind_ne_none : q.timeoutKind ≠ .none := by
  rcases q.measuring_iff.1 hm with rfl | rfl | rfl | rfl <;> decide

theorem SeqState.ne_done_of_measuring : q ≠ .done := by
  rintro rfl
  cases hm

end

@[simp] theorem storeBit_frame (s : State) : (storeBit s).frame = decidedFrame s := by
  rcases storeBit_cases s with ⟨-, h⟩ | ⟨-, h⟩ <;> rw [h]

end Sys2Proof.Machine
end

section
/-! The invariant: what it says of each value of `STATE`, and that reset meets it and every step keeps it. -/

namespace Sys2Proof.Machine

/-! ### The configuration -/

/-- R6: the four constraints. -/
theorem Config.wf_iff {c : Config} :
    c.wf = true ↔ 1 ≤ c.tStartLow ∧ 1 ≤ c.tRelease ∧ 1 ≤ c.tThresh ∧ c.tThresh + 2 ≤ c.tTimeout := by
  simp [Config.wf, and_assoc]

/-! ### The invariant, state by state -/

/-- Nothing is counted, assembled or recorded. -/
def DecoderCleared (s : State) : Prop := s.pcnt = 0 ∧ s.idx = 0 ∧ s.frame = frameClear ∧ s.err = .none

/-- In DONE the registers fit the recorded kind. -/
def DoneFits (s : State) : Prop :=
  match s.err with
  | .none => s.pcnt = 0 ∧ s.idx = 39 ∧ s.frame.sum8 = s.frame.f4.toNat ∧ s.frame.humRaw ≤ 1000
  | .noResponse => s.pcnt = s.cfg.tTimeout ∧ s.idx = 0 ∧ s.frame = frameClear
  | .lowPulseTimeout | .highPulseTimeout => s.pcnt = s.cfg.tTimeout ∧ s.idx ≤ 39 ∧ s.frame.ZeroFrom s.idx
  | .checksumInvalid => s.pcnt = 0 ∧ s.idx = 39 ∧ s.frame.sum8 ≠ s.frame.f4.toNat
  | .outOfRange => s.pcnt = 0 ∧ s.idx = 39 ∧ s.frame.sum8 = s.frame.f4.toNat ∧ 1000 < s.frame.humRaw

/-- What the invariant says of the registers, one line per value of `STATE`; tied to `Inv` by `inv_iff`. -/
def StateFits (s : State) : Prop :=
  match s.seq with
  | .idle | .armed => s.hcnt = 0 ∧ DecoderCleared s
  | .startLow => s.hcnt < s.cfg.tStartLow ∧ DecoderCleared s
  | .release => s.hcnt < s.cfg.tRelease ∧ DecoderCleared s
  | .ackLow => s.hcnt = 0 ∧ s.pcnt < s.cfg.tTimeout ∧ s.idx = 0 ∧ s.frame = frameClear ∧ s.err = .none
  | .ackHigh =>
    s.hcnt = 0 ∧ 1 ≤ s.pcnt ∧ s.pcnt < s.cfg.tTimeout ∧ s.idx = 0 ∧ s.frame = frameClear ∧ s.err = .none
  | .bitLow | .bitHigh =>
    s.hcnt = 0 ∧ 1 ≤ s.pcnt ∧ s.pcnt < s.cfg.tTimeout ∧ s.idx ≤ 39 ∧ s.frame.ZeroFrom s.idx ∧ s.err = .none
  | .checksum => s.hcnt = 0 ∧ s.pcnt = 0 ∧ s.idx = 39 ∧ s.err = .none
  | .convert => s.hcnt = 0 ∧ s.pcnt = 0 ∧ s.idx = 39 ∧ s.frame.sum8 = s.frame.f4.toNat ∧ s.err = .none
  | .done => s.hcnt = 0 ∧ DoneFits s

/-- R30 (h) holds of every state: the type of `STATE` has no other values. -/
theorem SeqState.code_le (q : SeqState) : q.code.toNat ≤ 10 := by
  cases q <;> decide

theorem inv_iff {s : State} : Inv s ↔ s.cfg.wf = true ∧ StateFits s := by
  refine and_congr_right fun hw => ?_
  obtain ⟨-, -, -, hT⟩ := Config.wf_iff.1 hw
  have hnamed := s.seq.code_le
  simp only [RuleInvariants, ErrOnlyInDone, PcntBounded, IdxBounded, HcntBounded, AckHasNoBits, BitsAheadAreZero,
    ChainedHasSample, SeqNamed, SuccessIsValid, QuietBeforeDecode, FrameWhole, DoneFitsKind, StateFits, DecoderCleared,
    DoneFits, Frame.humRaw, hnamed]
  cases hq : s.seq with
  | idle | startLow | release | armed | ackLow | ackHigh | bitLow | bitHigh | checksum | convert => grind
  | done => cases s.err <;> grind

/-! ### Reset meets the invariant, and every step keeps it -/

/-- Settles O54: in IDLE with every register cleared. -/
theorem invHoldsAfterReset : Obligations.InvHoldsAfterReset := fun _ _ _ hw =>
  inv_iff.2 ⟨hw, rfl, rfl, rfl, rfl, rfl⟩

theorem stateFits_resetRegisters (s : State) : StateFits (resetRegisters s) := ⟨rfl, rfl, rfl, rfl, rfl⟩

theorem stateFits_startLow {s : State} (hw : s.cfg.wf = true) : StateFits (startIn .startLow s) :=
  ⟨(Config.wf_iff.1 hw).1, rfl, rfl, rfl, rfl⟩

/-- The first state of a decode (R123): a timeout is at least 3 (R6). -/
theorem stateFits_ackLow {s : State} (hw : s.cfg.wf = true) : StateFits (startIn .ackLow s) := by
  obtain ⟨-, -, -, hT⟩ := Config.wf_iff.1 hw
  exact ⟨rfl, show 0 < s.cfg.tTimeout by omega, rfl, rfl, rfl⟩

theorem frameClear_zeroFrom (n : Nat) : frameClear.ZeroFrom n := fun j _ _ => frameClear_bit j

/-! What the invariant says of a measurement state is kept in each of the three ways its tick can go. -/

section
variable {s : State} (hm : s.seq.measuring = true) (h : StateFits s)
include hm h

theorem StateFits.pcnt_lt : s.pcnt < s.cfg.tTimeout := by
  rcases s.seq.measuring_iff.1 hm with hq | hq | hq | hq <;> simp only [StateFits, hq] at h <;> omega

theorem StateFits.err_eq_none : s.err = .none := by
  rcases s.seq.measuring_iff.1 hm with hq | hq | hq | hq <;> simp only [StateFits, hq] at h <;> simp [h]

theorem StateFits.counted (ht : s.pcnt + 1 ≠ s.cfg.tTimeout) : StateFits { s with pcnt := s.pcnt + 1 } := by
  have hlt := h.pcnt_lt hm
  rcases s.seq.measuring_iff.1 hm with hq | hq | hq | hq <;> simp only [StateFits, hq] at h ⊢ <;> grind

theorem StateFits.timedOut :
    StateFits { s with pcnt := s.cfg.tTimeout, err := s.seq.timeoutKind, seq := .done } := by
  rcases s.seq.measuring_iff.1 hm with hq | hq | hq | hq <;>
    simp only [StateFits, hq, DoneFits, SeqState.timeoutKind] at h ⊢ <;> grind

/-- The next measurement starts below the timeout, which is at least 3 (R6), and the bits ahead stay 0. -/
theorem StateFits.atEdge (hw : s.cfg.wf = true) : StateFits (s.seq.atEdge s) := by
  obtain ⟨-, -, -, hT⟩ := Config.wf_iff.1 hw
  have hone : 1 < s.cfg.tTimeout := by omega
  rcases s.seq.measuring_iff.1 hm with hq | hq | hq | hq <;> simp only [StateFits, hq] at h <;> rw [hq]
  · obtain ⟨hh, -, hi, hf, he⟩ := h
    exact ⟨hh, le_rfl, hone, hi, hf, he⟩
  · obtain ⟨hh, -, -, hi, hf, he⟩ := h
    exact ⟨hh, le_rfl, hone, show s.idx ≤ 39 by omega, show s.frame.ZeroFrom _ from hf ▸ frameClear_zeroFrom _, he⟩
  · obtain ⟨hh, -, -, hi, hz, he⟩ := h
    exact ⟨hh, le_rfl, hone, hi, hz, he⟩
  · obtain ⟨hh, -, -, hi, hz, he⟩ := h
    obtain ⟨h39, hs⟩ | ⟨h39, hs⟩ := storeBit_cases s <;> rw [SeqState.atEdge, hs]
    · exact ⟨hh, rfl, h39, he⟩
    · exact ⟨hh, le_rfl, hone, show s.idx + 1 ≤ 39 by omega, decidedFrame_zeroFrom (by omega) hz, he⟩

theorem StateFits.measurement (hw : s.cfg.wf = true) : StateFits (ownStep s.seq s) := by
  obtain ⟨ht, hs⟩ | hs | hs := ownStep_measuring_cases hm <;> rw [hs]
  · exact h.counted hm ht
  · exact h.timedOut hm
  · exact h.atEdge hm hw

end

/-- The state's own step keeps what the invariant says of the registers. -/
theorem StateFits.ownStep {s : State} (hw : s.cfg.wf = true) (h : StateFits s) : StateFits (ownStep s.seq s) := by
  obtain ⟨-, hrel, -, -⟩ := Config.wf_iff.1 hw
  cases hq : s.seq with
  | idle | armed | done => exact h
  | ackLow | ackHigh | bitLow | bitHigh => exact hq ▸ h.measurement (by rw [hq]; rfl) hw
  | startLow =>
    simp only [StateFits, hq] at h
    obtain ⟨hh, hclear⟩ := h
    obtain ⟨-, hs⟩ | ⟨hne, hs⟩ := handshakePhase_cases s.cfg.tStartLow .release s <;> rw [Machine.ownStep, hs]
    · exact ⟨hrel, hclear⟩
    · simp only [StateFits, hq]
      exact ⟨by omega, hclear⟩
  | release =>
    simp only [StateFits, hq] at h
    obtain ⟨hh, hclear⟩ := h
    obtain ⟨-, hs⟩ | ⟨hne, hs⟩ := handshakePhase_cases s.cfg.tRelease .armed s <;> rw [Machine.ownStep, hs]
    · exact ⟨rfl, hclear⟩
    · simp only [StateFits, hq]
      exact ⟨by omega, hclear⟩
  | checksum =>
    simp only [StateFits, hq] at h
    obtain ⟨hh, hp, hi, he⟩ := h
    obtain ⟨hsum, hs⟩ | ⟨hsum, hs⟩ := checkSum_cases s <;> rw [Machine.ownStep, hs]
    · exact ⟨hh, hp, hi, hsum, he⟩
    · exact ⟨hh, hp, hi, hsum⟩
  | convert =>
    simp only [StateFits, hq] at h
    obtain ⟨hh, hp, hi, hsum, he⟩ := h
    obtain ⟨hhum, hs⟩ | ⟨hhum, hs⟩ := checkRange_cases s <;> rw [Machine.ownStep, hs]
    · simp only [StateFits, DoneFits, he]
      exact ⟨hh, hp, hi, hsum, hhum⟩
    · exact ⟨hh, hp, hi, hsum, hhum⟩

/-- Settles O55: a step is a reset, the start of a phase, or the state's own step; each fits its state
(`StateFits.ownStep`), and the passing of a tick touches no register. -/
theorem invIsKeptByEveryStep : Obligations.InvIsKeptByEveryStep := by
  intro s t hinv h
  rw [inv_iff] at hinv ⊢
  obtain ⟨hw, hfits⟩ := hinv
  rw [configurationNeverChanges s t h]
  obtain ⟨-, ⟨-, rfl⟩ | ⟨-, -, -, rfl⟩ | ⟨-, -, -, rfl⟩ | ⟨-, -, -, rfl⟩⟩ := step_inv h
  · exact ⟨hw, stateFits_resetRegisters s⟩
  · exact ⟨hw, stateFits_startLow hw⟩
  · exact ⟨hw, stateFits_ackLow hw⟩
  · exact ⟨hw, hfits.ownStep hw⟩

/-- R167 for the state's own step: only the sample that reaches the timeout leaves the sentinel, the kind and DONE; every
other way leaves none of the three. -/
theorem sentinel_iff_of_measuring {s : State} (hinv : Inv s) (hm : s.seq.measuring = true) :
    ((ownStep s.seq s).pcnt = s.cfg.tTimeout ↔ (ownStep s.seq s).err = s.seq.timeoutKind) ∧
    ((ownStep s.seq s).pcnt = s.cfg.tTimeout ↔ (ownStep s.seq s).seq = .done) := by
  obtain ⟨hw, hfits⟩ := inv_iff.1 hinv
  obtain ⟨-, -, -, hT⟩ := Config.wf_iff.1 hw
  have hkind : s.err ≠ s.seq.timeoutKind := fun h => SeqState.timeoutKind_ne_none hm (h ▸ hfits.err_eq_none hm)
  obtain ⟨ht, hs⟩ | hs | hs := ownStep_measuring_cases hm <;> rw [hs]
  · exact ⟨iff_of_false ht hkind, iff_of_false ht (SeqState.ne_done_of_measuring hm)⟩
  · exact ⟨iff_of_true rfl rfl, iff_of_true rfl rfl⟩
  · have hle := SeqState.atEdge_pcnt_le hm s
    have hp : (s.seq.atEdge s).pcnt ≠ s.cfg.tTimeout := by omega
    exact ⟨iff_of_false hp (by rwa [SeqState.atEdge_err]), iff_of_false hp (SeqState.atEdge_seq_ne_done hm s)⟩

/-- Settles O35: the operation of a measurement state is its own step (`sentinel_iff_of_measuring`), which keeps the
configuration. -/
theorem sentinelIsTimeout : Obligations.SentinelIsTimeout := by
  intro s t i hinv hm hi hexec
  rw [exec_of_ownInstr hi, tickEffect_of_not_holding (SeqState.holding_of_measuring hm)] at hexec
  cases hexec
  rw [(ownStep_env s.seq s).1]
  exact sentinel_iff_of_measuring hinv hm

/-! ### Every reachable state -/

theorem step_of_stepN_succ {s t : State} {k : Nat} (h : stepN (k + 1) s = .next t) :
    ∃ u, step s = .next u ∧ stepN k u = .next t := by
  have hrun := Host.Core.run.eq_2 Sys2Proof.core s k
  cases hs : step s with
  | next u => exact ⟨u, rfl, stepN_succ k hs ▸ h⟩
  | fault f => exact f.casesOn
  | refused r =>
    rw [show Sys2Proof.core.step s = .refused r from hs] at hrun
    cases hrun.symm.trans h

/-- What every step keeps, a run keeps. -/
theorem stepN_keeps {P : State → Prop} (hstep : ∀ s t, P s → step s = .next t → P t) {k : Nat} {s t : State}
    (hs : P s) (h : stepN k s = .next t) : P t := by
  induction k generalizing s with
  | zero => cases h; exact hs
  | succ k ih =>
    obtain ⟨u, hu, hrest⟩ := step_of_stepN_succ h
    exact ih (hstep s u hs hu) hrest

/-- Settles O56: reset meets the invariant, every step keeps it, and R30 is part of it. -/
theorem ruleInvariantsAlwaysHold : Obligations.RuleInvariantsAlwaysHold := by
  intro c feed tick k t hw h
  obtain ⟨-, hrules, -⟩ := stepN_keeps invIsKeptByEveryStep (invHoldsAfterReset c feed tick hw) h
  exact hrules

/-! ### The widths of the counters -/

theorem lt_two_pow_bitsToHold {n m : Nat} (h : n ≤ m) : n < 2 ^ bitsToHold m :=
  h.trans_lt Nat.lt_log2_self

/-- Settles O57: R30 (b), (c) and (d) bound the three counters by what their registers hold. -/
theorem countersFitTheirRegisters : Obligations.CountersFitTheirRegisters := by
  refine ⟨fun s hinv => ?_, by decide, by decide⟩
  obtain ⟨-, ⟨-, ⟨hp, -⟩, hi, ⟨hother, hlow, hrel⟩, -⟩, -⟩ := hinv
  have hh : s.hcnt ≤ max s.cfg.tStartLow s.cfg.tRelease - 1 := by
    by_cases h1 : s.seq = .startLow
    · have := hlow h1
      omega
    · by_cases h2 : s.seq = .release
      · have := hrel h2
        omega
      · have := hother h1 h2
        omega
  exact ⟨lt_two_pow_bitsToHold hh, lt_two_pow_bitsToHold hp, by omega⟩

end Sys2Proof.Machine
end

section
/-! Codes and commands: the decoder against the encoder, the step as the operation that the tick's code selects, and what
a tick does not see of its inputs. -/

namespace Sys2Proof.Machine

/-! ### The decoder and the encoder -/

theorem encode_instr (q : SeqState) : encode q.instr = .state q.code := by
  cases q <;> rfl

theorem SeqState.ofCode_code (q : SeqState) : SeqState.ofCode q.code = some q := by
  cases q <;> rfl

/-- R93: the codes 0 to 10 are those of the eleven states. -/
theorem exists_code_eq {c : BitVec 4} (h : c.toNat < 11) : ∃ q : SeqState, q.code = c := by
  have hround : ∀ c : BitVec 4, c.toNat < 11 → (SeqState.ofCode c).map SeqState.code = some c := by decide
  obtain ⟨q, -, hq⟩ := Option.map_eq_some_iff.1 (hround c h)
  exact ⟨q, hq⟩

/-- A state code that decodes is the code of the state whose rule it selects. -/
theorem exists_state_of_decode {c : BitVec 4} {i : Instr} (h : decode (.state c) = .ok i) :
    ∃ q : SeqState, q.code = c ∧ q.instr = i := by
  by_cases hc : c.toNat < 11
  · obtain ⟨q, rfl⟩ := exists_code_eq hc
    rw [decode_code] at h
    exact ⟨q, rfl, Except.ok.inj h⟩
  · rw [decode_state_of_unreachable c (Nat.le_of_not_lt hc)] at h
    cases h

theorem encode_decodeCmd (op : BitVec 2) : encode (decodeCmd op) = .cmd op := by
  rcases bitVec2_cases op with rfl | rfl | rfl | rfl <;> rfl

/-- Settles O3: the encoder inverts the command table (`encode_decodeCmd`) and the state table (`encode_instr`). -/
theorem decodeEncodeAgree : Obligations.DecodeEncodeAgree := by
  refine ⟨fun i _ => by cases i <;> rfl, fun c i h => ?_⟩
  cases c with
  | cmd op =>
    obtain rfl := Except.ok.inj h
    exact encode_decodeCmd op
  | state c =>
    obtain ⟨q, rfl, rfl⟩ := exists_state_of_decode h
    exact encode_instr q

/-! ### A step runs the operation of the tick's code -/

/-- No operation faults or is refused (`00_scope.md` R12). -/
theorem exec_total (i : Instr) (s : State) : ∃ t, exec i s = .next t := by
  cases i <;> exact ⟨_, rfl⟩

theorem step_of_decoded {s t : State} {i : Instr} (hw : s.cfg.wf = true) (hr : s.inputs.rst = false)
    (hd : decode (fetchCode s) = .ok i) (he : exec i s = .next t) : step s = .next t.advance := by
  simp [step, hw, hr, hd, he]

/-- Settles O4: every operation answers a next state (`exec_total`), so the other two clauses are about no operation. -/
theorem stepRunsDecoded : Obligations.StepRunsDecoded := by
  intro s i hw hr hd
  obtain ⟨u, hu⟩ := exec_total i s
  refine ⟨fun t he => step_of_decoded hw hr hd he, fun f he => ?_, fun r he => ?_⟩ <;> rw [hu] at he <;> cases he

/-- Settles O6: a legal configuration takes a reset or the tick's effect; another one is refused. -/
theorem stepIsTotal : Obligations.StepIsTotal := by
  refine ⟨fun s hw => ?_, fun s hnot => step_of_not_wf (Bool.eq_false_iff.2 (mt Config.wf_iff.1 hnot))⟩
  cases hr : s.inputs.rst with
  | true => exact ⟨_, step_of_reset hw hr⟩
  | false => exact ⟨_, step_of_tick hw hr⟩

/-- The operation of the presented command is the tick's effect, like that of the state's own code
(`exec_of_ownInstr`). -/
theorem exec_of_presented {s : State} {op : BitVec 2} (hp : s.presented = some op) :
    exec (decodeCmd op) s = .next (tickEffect s) := by
  rcases bitVec2_cases op with rfl | rfl | rfl | rfl <;>
    simp [tickEffect, hp, decodeCmd, exec, execCmdNop, execCmdBegin, execCmdDecode, execCmdRsvd]

/-- Settles O7: both operations are the tick's effect. -/
theorem commandRuleIsStateRule : Obligations.CommandRuleIsStateRule := fun s _ _ hp hi =>
  ⟨tickEffect s, exec_of_presented hp, exec_of_ownInstr hi⟩

/-! ### A placed code -/

theorem exists_tableCode_of_decodeTableWord {nbits w : Nat} {i : Instr} (h : decodeTableWord nbits w = some i) :
    ∃ c, tableCode nbits w = some c ∧ decode c = .ok i := by
  unfold decodeTableWord at h
  cases hc : tableCode nbits w with
  | none => simp [hc] at h
  | some c =>
    cases hd : decode c with
    | ok j => simp_all
    | error e => simp [hc, hd] at h

/-- A code that decodes stands, once placed, where the tick's code is fetched from, in a tick without reset (log 4). -/
theorem placeCode_spec {c : Code} {i : Instr} (s : State) (h : decode c = .ok i) :
    (placeCode c s).cfg = s.cfg ∧ (placeCode c s).inputs.rst = false ∧ fetchCode (placeCode c s) = c := by
  cases c with
  | cmd op => exact ⟨rfl, rfl, rfl⟩
  | state c =>
    obtain ⟨q, rfl, -⟩ := exists_state_of_decode h
    simp only [placeCode, SeqState.ofCode_code]
    exact ⟨rfl, rfl, rfl⟩

/-- Settles O5: the placed code is fetched (`placeCode_spec`) and its operation answers a next state. -/
theorem placedCodeRunsNext : Obligations.PlacedCodeRunsNext := by
  intro s nbits w i hw hi
  obtain ⟨c, hc, hd⟩ := exists_tableCode_of_decodeTableWord hi
  obtain ⟨hcfg, hr, hf⟩ := placeCode_spec s hd
  have hplaced : s.withFetchWord nbits w = placeCode c s := by simp [State.withFetchWord, hc]
  obtain ⟨t, ht⟩ := exec_total i (placeCode c s)
  rw [hplaced]
  exact ⟨t, ht, step_of_decoded (hcfg ▸ hw) hr (by rw [hf]; exact hd) ht⟩

/-! ### Commands in the holding states -/

section
variable {q : SeqState} {s : State}

theorem holdingStep_of_not_presented (h : s.presented = none) : holdingStep q s = s := by
  simp [holdingStep, h]

theorem holdingStep_of_nop (h : s.presented = some 0b00#2) : holdingStep q s = s := by
  simp [holdingStep, commandEffect, h]

theorem holdingStep_of_begin (h : s.presented = some 0b01#2) (hq : q.holding = true) :
    holdingStep q s = startIn .startLow s := by
  simp [holdingStep, commandEffect, h, hq]

theorem holdingStep_of_decode (h : s.presented = some 0b10#2) :
    holdingStep q s = if q = .armed then startIn .ackLow s else s := by
  simp [holdingStep, commandEffect, h]

theorem holdingStep_of_rsvd (h : s.presented = some 0b11#2) : holdingStep q s = s := by
  simp [holdingStep, commandEffect, h]

end

theorem exec_stIdle (s : State) : exec .stIdle s = .next (holdingStep .idle s) := rfl
theorem exec_stArmed (s : State) : exec .stArmed s = .next (holdingStep .armed s) := rfl
theorem exec_stDone (s : State) : exec .stDone s = .next (holdingStep .done s) := rfl

/-- Settles O16: the rules of the three states are one `holdingStep`, read off for each code that can be presented. -/
theorem holdingStatesWait : Obligations.HoldingStatesWait := by
  simp only [Obligations.HoldingStatesWait, exec_stIdle, exec_stArmed, exec_stDone]
  refine ⟨fun s hv => ?_, fun s hp => ?_, fun s hp => ?_, fun s i hp hi => ?_⟩
  · have hp := presented_eq_none.2 hv
    simp only [holdingStep_of_not_presented hp, and_self]
  · rcases hp with hp | hp
    · simp only [holdingStep_of_nop hp, and_self]
    · simp only [holdingStep_of_rsvd hp, and_self]
  · simp only [holdingStep_of_decode hp]
    exact ⟨rfl, rfl, rfl⟩
  · rcases hi with rfl | rfl | rfl
    · rw [exec_stIdle, holdingStep_of_begin hp rfl]; rfl
    · rw [exec_stArmed, holdingStep_of_begin hp rfl]; rfl
    · rw [exec_stDone, holdingStep_of_begin hp rfl]; rfl

/-! ### `DECODE` -/

theorem exec_cmdDecode (s : State) :
    exec .cmdDecode s = .next (if s.seq = .armed then startIn .ackLow s else ownStep s.seq s) := rfl

theorem exec_cmdDecode_of_not_armed {s : State} (h : s.seq ≠ .armed) :
    exec .cmdDecode s = .next (ownStep s.seq s) := by
  rw [exec_cmdDecode, if_neg h]

/-- Settles O13: in ARMED DECODE is `startIn .ackLow`, elsewhere the state's own step, which a holding state does not
have; the table accepts it in ARMED only. -/
theorem decodeStartsDecoder : Obligations.DecodeStartsDecoder := by
  refine ⟨rfl, fun s hq => ?_, fun s hq => ?_, fun s hr hp => ?_, fun s i hb hi => ?_⟩
  · refine ⟨startIn .ackLow s, by rw [exec_cmdDecode, if_pos hq], rfl, rfl, rfl, ?_, rfl⟩
    simp [lineOeO_eq_decide, hq]
  · have hhold : s.seq.holding = true := SeqState.holding_iff.2 (hq.imp_right .inr)
    rw [exec_cmdDecode_of_not_armed (by rcases hq with hq | hq <;> simp [hq]), ownStep_of_holding hhold]
  · rw [cmdAcceptO_of_presented hr hp, cmdRejectO_of_presented hr hp, accepts_decode]
    exact ⟨rfl, rfl⟩
  · have hne : s.seq ≠ .armed := by rintro hq; simp [hq, SeqState.busy] at hb
    exact ⟨ownStep s.seq s, exec_of_ownInstr_of_busy hb hi, exec_cmdDecode_of_not_armed hne⟩

/-! ### What a tick does not see of its inputs -/

/-- Inputs with the same reset give the same step when, without reset, they give the same effect. -/
theorem step_withInputs_congr {s : State} {i j : Inputs} (hr : i.rst = j.rst)
    (h : (tickEffect (s.withInputs i)).advance = (tickEffect (s.withInputs j)).advance) :
    step (s.withInputs i) = step (s.withInputs j) := by
  cases hw : s.cfg.wf with
  | false => rw [step_of_not_wf (s := s.withInputs i) hw, step_of_not_wf (s := s.withInputs j) hw]
  | true =>
    cases hj : j.rst with
    | true =>
      rw [step_of_reset (s := s.withInputs i) hw (hr.trans hj), step_of_reset (s := s.withInputs j) hw hj]
      rfl
    | false =>
      rw [step_of_tick (s := s.withInputs i) hw (hr.trans hj), step_of_tick (s := s.withInputs j) hw hj, h]

/-- The state's own step sees of the tick's inputs only the line, and the passing of the tick forgets that. -/
theorem ownStep_advance_congr (q : SeqState) {s : State} {i j : Inputs} (hl : i.line = j.line) :
    (ownStep q (s.withInputs i)).advance = (ownStep q (s.withInputs j)).advance := by
  rw [← withInputs_withInputs s j i, ownStep_withInputs q (s := s.withInputs j) hl, advance_withInputs]

/-- Settles O17: in a busy state the tick's effect is the state's own step. -/
theorem busyStatesIgnoreCommands : Obligations.BusyStatesIgnoreCommands := by
  intro s i j hb hr hl
  have hhold := SeqState.busy_iff_not_holding.1 hb
  refine step_withInputs_congr hr ?_
  rw [tickEffect_of_not_holding (s := s.withInputs i) hhold, tickEffect_of_not_holding (s := s.withInputs j) hhold]
  exact ownStep_advance_congr s.seq hl

/-- Settles O18: with nothing presented no command is accepted, and the tick's effect is the state's own step. -/
theorem codeIgnoredWhenNotValid : Obligations.CodeIgnoredWhenNotValid := by
  intro s i op hv
  constructor
  · refine step_withInputs_congr rfl ?_
    rw [(noneAccepted_of_not_valid (s := s.withInputs i) hv).tickEffect_eq,
      (noneAccepted_of_not_valid (s := s.withInputs { i with cmdOp := op }) hv).tickEffect_eq]
    exact ownStep_advance_congr s.seq rfl
  · have hacc : cmdAccept (s.withInputs { i with cmdOp := op }) = cmdAccept (s.withInputs i) := by simp [cmdAccept, hv]
    have hrej : cmdReject (s.withInputs { i with cmdOp := op }) = cmdReject (s.withInputs i) := by simp [cmdReject, hv]
    rw [out, hacc, hrej]
    rfl

theorem handshakePhase_withInputs (limit : Nat) (q : SeqState) (s : State) (i : Inputs) :
    handshakePhase limit q (s.withInputs i) = (handshakePhase limit q s).withInputs i := by
  unfold handshakePhase
  rw [State.withInputs_hcnt]
  split <;> rfl

theorem checkSum_withInputs (s : State) (i : Inputs) : checkSum (s.withInputs i) = (checkSum s).withInputs i := by
  unfold checkSum
  rw [State.withInputs_frame]
  split <;> rfl

theorem checkRange_withInputs (s : State) (i : Inputs) : checkRange (s.withInputs i) = (checkRange s).withInputs i := by
  unfold checkRange
  rw [State.withInputs_frame]
  split <;> rfl

/-- R66: outside the measurement states the state's own step sees none of the tick's inputs. -/
theorem ownStep_withInputs_of_not_measuring {q : SeqState} (hm : q.measuring = false) (s : State) (i : Inputs) :
    ownStep q (s.withInputs i) = (ownStep q s).withInputs i := by
  cases q with
  | idle | armed | done => rfl
  | startLow | release => exact handshakePhase_withInputs _ _ s i
  | ackLow | ackHigh | bitLow | bitHigh => cases hm
  | checksum => exact checkSum_withInputs s i
  | convert => exact checkRange_withInputs s i

/-- Settles O24: the presented command is the same, and an accepted one looks at nothing else. -/
theorem lineUnusedOutsideMeasurement : Obligations.LineUnusedOutsideMeasurement := by
  intro s i l hm
  have hp : (s.withInputs { i with line := l }).presented = (s.withInputs i).presented := rfl
  refine step_withInputs_congr rfl ?_
  unfold tickEffect
  rw [hp]
  simp only [State.withInputs_seq, ownStep_withInputs_of_not_measuring hm]
  generalize (s.withInputs i).presented = p
  split
  · rfl
  · split <;> rfl

/-! ### An accepted BEGIN -/

theorem tickEffect_of_begin {s : State} (hp : s.presented = some 0b01#2) (hq : s.seq.holding = true) :
    tickEffect s = startIn .startLow s :=
  if_pos ⟨hp, hq⟩

/-- Settles O19: BEGIN, like reset, writes all six registers, and both states have the same inputs to come. -/
theorem beginForgetsEarlierTransactions : Obligations.BeginForgetsEarlierTransactions := by
  intro s u hcfg hfeed htick hs hu hp
  have hin : u.inputs = s.inputs := inputAt_congr hfeed.symm htick.symm 0
  have hps : s.presented = some 0b01#2 := presented_eq_some.2 hp
  have hpu : u.presented = some 0b01#2 := presented_eq_some.2 (hin ▸ hp)
  cases hw : s.cfg.wf with
  | false => rw [step_of_not_wf hw, step_of_not_wf (hcfg ▸ hw)]
  | true =>
    have hwu : u.cfg.wf = true := hcfg ▸ hw
    cases hr : s.inputs.rst with
    | true =>
      rw [step_of_reset hw hr, step_of_reset hwu (hin ▸ hr)]
      simp only [resetRegisters, State.advance, hcfg, hfeed, htick]
    | false =>
      rw [step_of_tick hw hr, step_of_tick hwu (hin ▸ hr), tickEffect_of_begin hps hs, tickEffect_of_begin hpu hu]
      simp only [startIn, State.advance, hcfg, hfeed, htick]

end Sys2Proof.Machine
end

section
/-! One step: the handshake and the validation states, the transition table, the moves of `STATE` and `IDX`, the writes to
the frame buffer, the status flags and the failure conditions. -/

namespace Sys2Proof.Machine

/-! ### The handshake and the validation states -/

theorem handshakePhase_of_last {limit : Nat} {s : State} (h : s.hcnt + 1 = limit) (q : SeqState) :
    handshakePhase limit q s = { s with seq := q, hcnt := 0 } :=
  if_pos h

theorem handshakePhase_of_not_last {limit : Nat} {s : State} (h : s.hcnt + 1 ≠ limit) (q : SeqState) :
    handshakePhase limit q s = { s with hcnt := s.hcnt + 1 } :=
  if_neg h

theorem exec_stStartLow (s : State) :
    exec .stStartLow s = .next (handshakePhase s.cfg.tStartLow .release s) := rfl

theorem exec_stRelease (s : State) : exec .stRelease s = .next (handshakePhase s.cfg.tRelease .armed s) := rfl

/-- Settles O20: a phase of the handshake with the limit `T_START_LOW`, while the pin is driven low. -/
theorem startLowTick : Obligations.StartLowTick := by
  refine ⟨rfl, fun s h => ?_, fun s h => ?_, fun s hq => ?_⟩
  · rw [exec_stStartLow, handshakePhase_of_last h]
  · rw [exec_stStartLow, handshakePhase_of_not_last h]
  · simp [out, hq, SeqState.drives, SeqState.lineOut, SeqState.busy]

/-- Settles O21: a phase of the handshake with the limit `T_RELEASE`, while the pin is driven high. -/
theorem releaseTick : Obligations.ReleaseTick := by
  refine ⟨rfl, fun s h => ?_, fun s h => ?_, fun s hq => ?_⟩
  · rw [exec_stRelease, handshakePhase_of_last h]
  · rw [exec_stRelease, handshakePhase_of_not_last h]
  · simp [out, hq, SeqState.drives, SeqState.lineOut, SeqState.busy]

/-- R212: a humidity within the bound is a success. -/
theorem checkRange_of_inRange {s : State} (h : s.frame.humRaw ≤ 1000) : checkRange s = { s with seq := .done } := by
  obtain ⟨-, hs⟩ | ⟨hgt, -⟩ := checkRange_cases s
  · exact hs
  · exact absurd hgt h.not_gt

theorem exec_stConvert (s : State) : exec .stConvert s = .next (checkRange s) := rfl

/-- Settles O40: CONVERT decides on the raw humidity, which is the two bytes. -/
theorem convertChecksHumidity : Obligations.ConvertChecksHumidity := by
  refine ⟨fun s h => ?_, fun s h => ?_⟩
  · rw [exec_stConvert, checkRange_of_inRange h]
  · rw [exec_stConvert, checkRange_of_tooHigh h]

/-! ### The transition table -/

/-- In a busy state a tick without reset is the state's own step. -/
theorem step_of_busy {s : State} {q : SeqState} (hw : s.cfg.wf = true) (hr : s.inputs.rst = false) (hq : s.seq = q)
    (hb : q.holding = false) : step s = .next (ownStep q s).advance := by
  subst hq
  rw [step_of_tick hw hr, tickEffect_of_not_holding hb]

theorem tickEffect_of_decode {s : State} (hp : s.presented = some 0b10#2) (hq : s.seq = .armed) :
    tickEffect s = startIn .ackLow s := by
  rw [tickEffect, if_neg (by simp [hp]), if_pos ⟨hp, hq⟩]

/-- A holding state waits when neither BEGIN nor an accepted DECODE is presented. -/
theorem tickEffect_of_waiting {s : State} (hq : s.seq.holding = true) (hb : s.presented ≠ some 0b01#2)
    (hd : ¬(s.seq = .armed ∧ s.presented = some 0b10#2)) : tickEffect s = s := by
  rw [tickEffect, if_neg fun h => hb h.1, if_neg fun h => hd h.symm, ownStep_of_holding hq]

section
variable {s : State} (hw : s.cfg.wf = true) (hr : s.inputs.rst = false)
include hw hr

/-! The rows of a measurement state: the sample is counted, times out, or ends the pulse. -/

variable {q : SeqState} {l : Bool} (hq : s.seq = q) (ht : q.target = some l)
include hq ht

theorem step_of_measuring : step s = .next (measureTick l q.timeoutKind q.atEdge s).advance := by
  have hm := SeqState.holding_of_measuring (SeqState.measuring_iff_target.2 ⟨l, ht⟩)
  rw [step_of_busy hw hr hq hm, ownStep_of_target ht]

theorem step_of_sample (hl : s.line = l) (hp : s.pcnt + 1 ≠ s.cfg.tTimeout) :
    step s = .next (State.advance { s with pcnt := s.pcnt + 1 }) := by
  rw [step_of_measuring hw hr hq ht, measureTick_of_not_timedOut hl hp]

theorem step_of_timeout (hl : s.line = l) (hp : s.pcnt + 1 = s.cfg.tTimeout) :
    step s = .next (State.advance { s with pcnt := s.cfg.tTimeout, err := q.timeoutKind, seq := .done }) := by
  rw [step_of_measuring hw hr hq ht, measureTick_of_timedOut hl hp]

theorem step_of_edge (hl : s.line = !l) : step s = .next (q.atEdge s).advance := by
  rw [step_of_measuring hw hr hq ht, measureTick_of_edge (by cases l <;> simp [hl])]

end

/-- Settles O52: each row is the equation of its state's operation under the row's condition. -/
theorem transitionTable : Obligations.TransitionTable := by
  refine ⟨fun s hw hr => step_of_reset hw hr, fun s hw hr => ?_⟩
  refine ⟨fun hq hp => ?_, fun hq hp => ?_, fun hq hb hd => ?_, fun hq h => ?_, fun hq h => ?_, fun hq h => ?_,
    fun hq h => ?_, fun hq hl hp => step_of_sample hw hr hq rfl hl hp.ne, fun hq => step_of_timeout hw hr hq rfl,
    fun hq => step_of_edge hw hr hq rfl, fun hq hl hp => step_of_sample hw hr hq rfl hl hp.ne,
    fun hq => step_of_timeout hw hr hq rfl, fun hq => step_of_edge hw hr hq rfl,
    fun hq hl hp => step_of_sample hw hr hq rfl hl hp.ne, fun hq => step_of_timeout hw hr hq rfl,
    fun hq => step_of_edge hw hr hq rfl, fun hq hl hp => step_of_sample hw hr hq rfl hl hp.ne,
    fun hq => step_of_timeout hw hr hq rfl, fun hq hl hi => ?_, fun hq hl hi => ?_, fun hq h => ?_, fun hq h => ?_,
    fun hq h => ?_, fun hq h => ?_⟩
  · rw [step_of_tick hw hr, tickEffect_of_begin hp (SeqState.holding_iff.2 hq)]; rfl
  · rw [step_of_tick hw hr, tickEffect_of_decode hp hq]; rfl
  · rw [step_of_tick hw hr, tickEffect_of_waiting (SeqState.holding_iff.2 hq) hb hd]
  · rw [step_of_busy hw hr hq rfl, ownStep, handshakePhase_of_not_last h.ne]
  · rw [step_of_busy hw hr hq rfl, ownStep, handshakePhase_of_last h]
  · rw [step_of_busy hw hr hq rfl, ownStep, handshakePhase_of_not_last h.ne]
  · rw [step_of_busy hw hr hq rfl, ownStep, handshakePhase_of_last h]
  · rw [step_of_edge hw hr hq rfl hl, SeqState.atEdge, storeBit_of_not_last hi.ne, decidedFrame_eq]
  · rw [step_of_edge hw hr hq rfl hl, SeqState.atEdge, storeBit_of_last hi, decidedFrame_eq, hi]
  · rw [step_of_busy hw hr hq rfl, ownStep, checkSum_of_match h]
  · rw [step_of_busy hw hr hq rfl, ownStep, checkSum_of_mismatch h]
  · rw [step_of_busy hw hr hq rfl, ownStep, checkRange_of_inRange h]
  · rw [step_of_busy hw hr hq rfl, ownStep, checkRange_of_tooHigh h]

/-! ### The moves of `STATE` and `IDX` -/

/-- R23: the moves of `STATE` apart from reset. -/
def SeqState.moves : List (SeqState × SeqState) :=
  [(.idle, .startLow), (.armed, .startLow), (.done, .startLow), (.startLow, .release),
   (.release, .armed), (.armed, .ackLow), (.ackLow, .ackHigh), (.ackHigh, .bitLow), (.bitLow, .bitHigh),
   (.bitHigh, .bitLow), (.bitHigh, .checksum), (.checksum, .convert), (.convert, .done), (.ackLow, .done),
   (.ackHigh, .done), (.bitLow, .done), (.bitHigh, .done), (.checksum, .done)]

/-- From `s` to `t` `STATE` stays or moves as listed, and `IDX` stays or counts a stored bit that is not the last. -/
def MovesAsListed (s t : State) : Prop :=
  (t.seq = s.seq ∨ (s.seq, t.seq) ∈ SeqState.moves) ∧
  (t.idx = s.idx ∨ (s.seq = .bitHigh ∧ t.seq = .bitLow ∧ t.idx = s.idx + 1 ∧ s.idx ≠ 39))

theorem MovesAsListed.of_move {s t : State} {q q' : SeqState} (hq : s.seq = q) (hq' : t.seq = q')
    (h : (q, q') ∈ SeqState.moves) (hidx : t.idx = s.idx) : MovesAsListed s t :=
  ⟨.inr (by rw [hq, hq']; exact h), .inl hidx⟩

theorem movesAsListed_atEdge {s : State} (hm : s.seq.measuring = true) : MovesAsListed s (s.seq.atEdge s) := by
  rcases s.seq.measuring_iff.1 hm with hq | hq | hq | hq <;> rw [hq, SeqState.atEdge]
  · exact .of_move hq (chainTo_seq _ s) (by decide) rfl
  · exact .of_move hq (chainTo_seq _ s) (by decide) rfl
  · exact .of_move hq (chainTo_seq _ s) (by decide) rfl
  · obtain ⟨-, hs⟩ | ⟨hne, hs⟩ := storeBit_cases s <;> rw [hs]
    · exact .of_move hq (q' := .checksum) rfl (by decide) rfl
    · exact ⟨.inr (by rw [hq]; simp [SeqState.moves]), .inr ⟨hq, rfl, rfl, hne⟩⟩

theorem movesAsListed_measurement {s : State} (hm : s.seq.measuring = true) : MovesAsListed s (ownStep s.seq s) := by
  obtain ⟨-, hs⟩ | hs | hs := ownStep_measuring_cases hm <;> rw [hs]
  · exact ⟨.inl rfl, .inl rfl⟩
  · rcases s.seq.measuring_iff.1 hm with hq | hq | hq | hq <;>
      exact .of_move hq (q' := .done) rfl (by decide) rfl
  · exact movesAsListed_atEdge hm

theorem movesAsListed_handshakePhase {s : State} {q : SeqState} (limit : Nat) (h : (s.seq, q) ∈ SeqState.moves) :
    MovesAsListed s (handshakePhase limit q s) := by
  obtain ⟨-, hs⟩ | ⟨-, hs⟩ := handshakePhase_cases limit q s <;> rw [hs]
  · exact ⟨.inr h, .inl rfl⟩
  · exact ⟨.inl rfl, .inl rfl⟩

theorem movesAsListed_ownStep (s : State) : MovesAsListed s (ownStep s.seq s) := by
  cases hq : s.seq with
  | idle | armed | done => exact ⟨.inl rfl, .inl rfl⟩
  | startLow | release => exact movesAsListed_handshakePhase _ (by rw [hq]; decide)
  | ackLow | ackHigh | bitLow | bitHigh => exact hq ▸ movesAsListed_measurement (by rw [hq]; rfl)
  | checksum =>
    obtain ⟨-, hs⟩ | ⟨-, hs⟩ := checkSum_cases s <;> rw [ownStep, hs]
    · exact .of_move hq (q' := .convert) rfl (by decide) rfl
    · exact .of_move hq (q' := .done) rfl (by decide) rfl
  | convert =>
    obtain ⟨-, hs⟩ | ⟨-, hs⟩ := checkRange_cases s <;> rw [ownStep, hs] <;>
      exact .of_move hq (q' := .done) rfl (by decide) rfl

/-- Settles O53: an accepted command makes a listed move and clears `IDX`; the rest is the state's own step
(`movesAsListed_ownStep`). -/
theorem onlyListedTransitions : Obligations.OnlyListedTransitions := by
  intro s t h hr
  obtain ⟨-, ⟨hr', -⟩ | ⟨-, -, hq, rfl⟩ | ⟨-, -, hq, rfl⟩ | ⟨-, -, -, rfl⟩⟩ := step_inv h
  · exact absurd hr' (by simp [hr])
  · refine ⟨.inr ?_, fun _ => Nat.zero_le 39, .inr (.inl rfl)⟩
    rcases SeqState.holding_iff.1 hq with hq | hq | hq <;> simp [hq]
  · exact ⟨.inr (by simp [hq]), fun _ => Nat.zero_le 39, .inr (.inl rfl)⟩
  · obtain ⟨hmove, hidx | ⟨hq, hq', hidx, hne⟩⟩ := movesAsListed_ownStep s
    · exact ⟨hmove, fun hle => hidx.trans_le hle, .inl hidx⟩
    · refine ⟨hmove, fun hle => ?_, .inr (.inr ⟨hq, hq', hidx⟩)⟩
      rw [State.advance_idx, hidx]
      omega

/-! ### The frame buffer -/

theorem handshakePhase_frame (limit : Nat) (q : SeqState) (s : State) :
    (handshakePhase limit q s).frame = s.frame := by
  rcases handshakePhase_cases limit q s with ⟨-, h⟩ | ⟨-, h⟩ <;> rw [h]

theorem measureTick_frame {l : Bool} {k : Err} {atEdge : State → State} {s : State}
    (h : s.line ≠ l → (atEdge s).frame = s.frame) : (measureTick l k atEdge s).frame = s.frame := by
  obtain ⟨-, -, hs⟩ | ⟨-, -, hs⟩ | ⟨hl, hs⟩ := measureTick_cases l k atEdge s <;> rw [hs]
  exact h hl

/-- R65, R70: only the end of a pulse in BIT_HIGH writes the buffer. -/
theorem ownStep_frame_of_ne_bitHigh {q : SeqState} (hq : q ≠ .bitHigh) (s : State) : (ownStep q s).frame = s.frame := by
  cases q with
  | idle | armed | done => rfl
  | startLow | release => exact handshakePhase_frame _ _ s
  | ackLow | ackHigh | bitLow =>
    rw [ownStep]
    exact measureTick_frame fun _ => rfl
  | bitHigh => exact absurd rfl hq
  | checksum => rcases checkSum_cases s with ⟨-, h⟩ | ⟨-, h⟩ <;> rw [ownStep, h]
  | convert => rcases checkRange_cases s with ⟨-, h⟩ | ⟨-, h⟩ <;> rw [ownStep, h]

theorem ownStep_bitHigh_frame (s : State) :
    (ownStep .bitHigh s).frame = if s.line = false then decidedFrame s else s.frame := by
  rw [ownStep]
  cases hl : s.line with
  | true => rw [measureTick_frame fun h => absurd hl h]; rfl
  | false => rw [measureTick_of_edge (by simp [hl]), storeBit_frame]; rfl

/-- Settles O33: reset and an accepted command clear the buffer; the rest is the state's own step. -/
theorem frameIsWrittenOnlyByRule : Obligations.FrameIsWrittenOnlyByRule := by
  intro s t h
  obtain ⟨-, ⟨hr, rfl⟩ | ⟨-, hp, hq, rfl⟩ | ⟨-, hp, hq, rfl⟩ | ⟨hr, hb, hd, rfl⟩⟩ := step_inv h
  · rw [if_pos (.inl hr)]; rfl
  · rw [if_pos (.inr (.inl ⟨hp, hq⟩))]; rfl
  · rw [if_pos (.inr (.inr ⟨hp, hq⟩))]; rfl
  · rw [if_neg (by simp [hr, hb, hd]), State.advance_frame]
    by_cases hq : s.seq = .bitHigh
    · rw [hq, ownStep_bitHigh_frame, decidedFrame_eq]
      by_cases hl : s.line = false <;> simp [hl]
    · rw [ownStep_frame_of_ne_bitHigh hq, if_neg fun hc => hq hc.1]

/-- Settles O29: the decision sets at most the bit at `IDX` (`decidedFrame_bit`), and the invariant has that bit at 0. -/
theorem decidedBitIsPlaced : Obligations.DecidedBitIsPlaced := by
  intro s hinv hq hl
  obtain ⟨-, ⟨-, -, hi, -, -, hahead, -⟩, -⟩ := hinv
  refine ⟨storeBit s, exec_stBitHigh_of_edge hl, fun j hj => ?_⟩
  rw [storeBit_frame, decidedFrame_bit (by omega)]
  by_cases hj' : j = s.idx
  · simp [hj', hahead (.inr hq) s.idx (by omega) le_rfl]
  · simp [hj']

/-! ### Status flags and failure conditions -/

theorem SeqState.busy_iff {q : SeqState} :
    q.busy = true ↔ q = .startLow ∨ q = .release ∨ q = .ackLow ∨ q = .ackHigh ∨ q = .bitLow ∨ q = .bitHigh ∨
      q = .checksum ∨ q = .convert := by
  cases q <;> simp [SeqState.busy]

theorem Err.code_le (k : Err) : k.code.toNat ≤ 5 := by
  cases k <;> decide

/-- Settles O47: `busy_o` is the kind of the state, the other flags compare registers. -/
theorem statusFlags : Obligations.StatusFlags := by
  intro s
  refine ⟨SeqState.busy_iff, decide_eq_true_iff, decide_eq_true_iff, ?_, ?_, ?_, ?_, okO_iff s, rfl, s.err.code_le⟩ <;>
    cases hq : s.seq <;> simp [out, hq, SeqState.busy]

/-- Settles O51: under each condition the state's own step records its kind (`FailsWith.ownStep_eq`), and it records one. -/
theorem atMostOneFailureCondition : Obligations.AtMostOneFailureCondition := by
  intro s k l hk hl
  have hsame : failureEntered k s = failureEntered l s := hk.ownStep_eq.symm.trans hl.ownStep_eq
  exact congrArg State.err hsame

end Sys2Proof.Machine
end

section
/-! Runs: what a number of ticks does to the inputs to come, to the counter of a state that counts, and to a state that
waits. -/

namespace Sys2Proof.Machine

/-! ### The passing of ticks -/

/-- `k` ticks have passed for the host and the environment, as `State.advance` lets one pass; the registers are kept. -/
def State.after (s : State) (k : Nat) : State := { s with feed := s.feed.drop k, tick := s.tick + k }

section
variable (s : State) (k : Nat)

@[simp] theorem State.after_seq : (s.after k).seq = s.seq := rfl
@[simp] theorem State.after_hcnt : (s.after k).hcnt = s.hcnt := rfl
@[simp] theorem State.after_pcnt : (s.after k).pcnt = s.pcnt := rfl
@[simp] theorem State.after_idx : (s.after k).idx = s.idx := rfl
@[simp] theorem State.after_frame : (s.after k).frame = s.frame := rfl
@[simp] theorem State.after_err : (s.after k).err = s.err := rfl
@[simp] theorem State.after_cfg : (s.after k).cfg = s.cfg := rfl

@[simp] theorem State.after_zero : s.after 0 = s := by
  simp [State.after]

@[simp] theorem State.after_advance : (s.after k).advance = s.after (k + 1) := by
  simp [State.after, State.advance, Nat.add_assoc]

theorem State.advance_eq_after : s.advance = s.after 1 := by
  simp [State.after, State.advance]

@[simp] theorem State.after_after (m : Nat) : (s.after k).after m = s.after (k + m) := by
  simp [State.after, Nat.add_assoc]

theorem inputAt_after (j : Nat) : (s.after k).inputAt j = s.inputAt (k + j) := by
  simp [State.inputAt, State.after, Nat.add_assoc]

end

theorem NoReset.mono {s : State} {m n : Nat} (h : NoReset n s) (hle : m ≤ n) : NoReset m s :=
  fun j hj => h j (hj.trans_le hle)

theorem NoReset.after {s : State} {k n : Nat} (h : NoReset (k + n) s) : NoReset n (s.after k) := by
  intro j hj
  rw [inputAt_after]
  exact h (k + j) (by omega)

theorem inputs_after (s : State) (k : Nat) : (s.after k).inputs = s.inputAt k :=
  inputAt_after s k 0

theorem NoReset.rst_after {s : State} {k : Nat} (h : NoReset (k + 1) s) : (s.after k).inputs.rst = false := by
  rw [inputs_after]
  exact h k k.lt_succ_self

/-- A step uses up the inputs of its tick, whatever it does to the registers. -/
theorem inputAt_of_step {s t : State} (h : step s = .next t) (j : Nat) : t.inputAt j = s.inputAt (j + 1) := by
  rw [← inputAt_advance]
  obtain ⟨-, ⟨-, rfl⟩ | ⟨-, -, -, rfl⟩ | ⟨-, -, -, rfl⟩ | ⟨-, -, -, rfl⟩⟩ := step_inv h
  · exact inputAt_congr rfl rfl j
  · exact inputAt_congr rfl rfl j
  · exact inputAt_congr rfl rfl j
  · obtain ⟨-, hfeed, htick⟩ := ownStep_env s.seq s
    exact inputAt_congr (by simp [hfeed]) (by simp [htick]) j

theorem NoReset.of_step {s t : State} {n : Nat} (hr : NoReset (n + 1) s) (h : step s = .next t) : NoReset n t := by
  intro j hj
  rw [inputAt_of_step h]
  exact hr (j + 1) (by omega)

/-! ### Runs in parts -/

theorem stepN_one (s : State) {t : State} (h : step s = .next t) : stepN 1 s = .next t :=
  stepN_succ 0 h

theorem stepN_trans {s t u : State} {k m : Nat} (h : stepN k s = .next t) (h' : stepN m t = .next u) :
    stepN (k + m) s = .next u :=
  (stepN_add k m h).trans h'

theorem stepN_snoc {s t u : State} {k : Nat} (h : stepN k s = .next t) (h' : step t = .next u) :
    stepN (k + 1) s = .next u :=
  stepN_trans h (stepN_one t h')

/-! ### Waiting -/

/-- A holding state keeps every register while no command is accepted but NOP. -/
theorem stepN_waiting {s : State} {n : Nat} (hw : s.cfg.wf = true) (hq : s.seq.holding = true) (hr : NoReset n s)
    (hb : ∀ j, j < n → ¬Presents s j 0b01#2) (hd : s.seq = .armed → ∀ j, j < n → ¬Presents s j 0b10#2) :
    stepN n s = .next (s.after n) := by
  induction n with
  | zero => simp
  | succ n ih =>
    have hbegin : (s.after n).presented ≠ some 0b01#2 := by
      rw [Ne, presented_eq_some, inputs_after]
      exact hb n (by omega)
    have hdecode : ¬(s.seq = .armed ∧ (s.after n).presented = some 0b10#2) := by
      rw [presented_eq_some, inputs_after]
      exact fun ⟨ha, hp⟩ => hd ha n (by omega) hp
    refine stepN_snoc (ih (hr.mono (by omega)) (fun j hj => hb j (by omega)) fun ha j hj => hd ha j (by omega)) ?_
    rw [step_of_tick (s := s.after n) hw hr.rst_after, tickEffect_of_waiting (s := s.after n) hq hbegin hdecode,
      State.after_advance]

/-- Settles O48: DONE waits, and every result output is a function of the registers. -/
theorem resultIsStable : Obligations.ResultIsStable := by
  intro s k hw hq hr hb
  have hrun : stepN k s = .next (s.after k) :=
    stepN_waiting hw (by rw [hq]; rfl) hr hb fun ha => by simp [hq] at ha
  exact ⟨s.after k, hrun, ⟨rfl, rfl, rfl, rfl, rfl, rfl⟩, decide_eq_true hq, rfl, rfl, rfl, rfl, rfl⟩

/-! ### The handshake -/

/-- `n` ticks of a handshake phase have been counted. -/
def State.phaseCounted (s : State) (n : Nat) : State := State.after { s with hcnt := s.hcnt + n } n

section
variable {s : State} {q q' : SeqState} {limit n : Nat} (hw : s.cfg.wf = true) (hq : s.seq = q) (hb : q.holding = false)
  (hown : ∀ u : State, u.cfg = s.cfg → ownStep q u = handshakePhase limit q' u)
include hw hq hb hown

theorem step_phaseCounted (hr : NoReset (n + 1) s) :
    step (s.phaseCounted n) = .next (handshakePhase limit q' (s.phaseCounted n)).advance := by
  rw [step_of_busy (s := s.phaseCounted n) hw (NoReset.rst_after hr) hq hb, hown (s.phaseCounted n) rfl]

/-- A phase of the handshake counts its ticks. -/
theorem stepN_handshake (hr : NoReset n s) (hlt : s.hcnt + n < limit) : stepN n s = .next (s.phaseCounted n) := by
  induction n with
  | zero => simp [State.phaseCounted]
  | succ n ih =>
    refine stepN_snoc (ih (hr.mono (by omega)) (by omega)) ?_
    have hnot : (s.phaseCounted n).hcnt + 1 ≠ limit := by simp only [State.phaseCounted, State.after_hcnt]; omega
    rw [step_phaseCounted hw hq hb hown hr, handshakePhase_of_not_last hnot]
    exact congrArg _ (State.after_advance { s with hcnt := s.hcnt + (n + 1) } n)

/-- The last tick of the phase goes on to the next state. -/
theorem stepN_handshake_end (hr : NoReset (n + 1) s) (hlimit : s.hcnt + n + 1 = limit) :
    stepN (n + 1) s = .next (State.after { s with seq := q', hcnt := 0 } (n + 1)) := by
  refine stepN_snoc (stepN_handshake hw hq hb hown (hr.mono (by omega)) (by omega)) ?_
  have hlast : (s.phaseCounted n).hcnt + 1 = limit := hlimit
  rw [step_phaseCounted hw hq hb hown hr, handshakePhase_of_last hlast]
  exact congrArg _ (State.after_advance { s with seq := q', hcnt := 0 } n)

end

theorem stepN_startLow {s : State} {n : Nat} (hw : s.cfg.wf = true) (hq : s.seq = .startLow) (hr : NoReset n s)
    (h : s.hcnt + n < s.cfg.tStartLow) : stepN n s = .next (s.phaseCounted n) :=
  stepN_handshake (q' := .release) hw hq rfl (fun u hu => by rw [← hu, ownStep]) hr h

theorem stepN_startLow_end {s : State} {n : Nat} (hw : s.cfg.wf = true) (hq : s.seq = .startLow)
    (hr : NoReset (n + 1) s) (h : s.hcnt + n + 1 = s.cfg.tStartLow) :
    stepN (n + 1) s = .next (State.after { s with seq := .release, hcnt := 0 } (n + 1)) :=
  stepN_handshake_end hw hq rfl (fun u hu => by rw [← hu, ownStep]) hr h

theorem stepN_release {s : State} {n : Nat} (hw : s.cfg.wf = true) (hq : s.seq = .release) (hr : NoReset n s)
    (h : s.hcnt + n < s.cfg.tRelease) : stepN n s = .next (s.phaseCounted n) :=
  stepN_handshake (q' := .armed) hw hq rfl (fun u hu => by rw [← hu, ownStep]) hr h

theorem stepN_release_end {s : State} {n : Nat} (hw : s.cfg.wf = true) (hq : s.seq = .release)
    (hr : NoReset (n + 1) s) (h : s.hcnt + n + 1 = s.cfg.tRelease) :
    stepN (n + 1) s = .next (State.after { s with seq := .armed, hcnt := 0 } (n + 1)) :=
  stepN_handshake_end hw hq rfl (fun u hu => by rw [← hu, ownStep]) hr h

/-! ### From an accepted BEGIN to ARMED -/

/-- The registers of `s` after an accepted BEGIN with `STATE` at `q`, `k` ticks after the one of BEGIN. -/
def begun (s : State) (q : SeqState) (k : Nat) : State := (startIn q s).after k

section
variable {s : State} (hw : s.cfg.wf = true) (hq : s.seq.holding = true) (hp : Presents s 0 0b01#2)
include hw hq hp

theorem stepN_begin (hr : NoReset 1 s) : stepN 1 s = .next (begun s .startLow 1) := by
  refine stepN_one s ?_
  rw [step_of_tick hw (hr 0 Nat.one_pos), tickEffect_of_begin (presented_eq_some.2 hp) hq, State.advance_eq_after, begun]

theorem stepN_begun_startLow {n : Nat} (hr : NoReset (1 + n) s) (hn : n < s.cfg.tStartLow) :
    stepN (1 + n) s = .next ((begun s .startLow 1).phaseCounted n) := by
  have hr' : NoReset n (begun s .startLow 1) := NoReset.after (s := startIn .startLow s) hr
  have hlt : (begun s .startLow 1).hcnt + n < s.cfg.tStartLow := by simpa [begun] using hn
  exact stepN_trans (stepN_begin hw hq hp (hr.mono (by omega))) (stepN_startLow hw rfl hr' hlt)

theorem stepN_begun_release (hr : NoReset (1 + s.cfg.tStartLow) s) :
    stepN (1 + s.cfg.tStartLow) s = .next (begun s .release (1 + s.cfg.tStartLow)) := by
  obtain ⟨n, hn⟩ : ∃ n, s.cfg.tStartLow = n + 1 := Nat.exists_eq_add_of_le' (Config.wf_iff.1 hw).1
  have hr' : NoReset (n + 1) (begun s .startLow 1) := NoReset.after (s := startIn .startLow s) (hn ▸ hr)
  have hend : (begun s .startLow 1).hcnt + n + 1 = s.cfg.tStartLow := by simp [begun, hn]
  have hrun := stepN_trans (stepN_begin hw hq hp (hr.mono (by omega))) (stepN_startLow_end hw rfl hr' hend)
  rw [hn, hrun]
  exact congrArg _ (State.after_after (startIn .release s) 1 (n + 1))

theorem stepN_begun_releaseCounted {n : Nat} (hr : NoReset (1 + s.cfg.tStartLow + n) s) (hn : n < s.cfg.tRelease) :
    stepN (1 + s.cfg.tStartLow + n) s = .next ((begun s .release (1 + s.cfg.tStartLow)).phaseCounted n) := by
  have hr' : NoReset n (begun s .release (1 + s.cfg.tStartLow)) := NoReset.after (s := startIn .release s) hr
  have hlt : (begun s .release (1 + s.cfg.tStartLow)).hcnt + n < s.cfg.tRelease := by simpa [begun] using hn
  exact stepN_trans (stepN_begun_release hw hq hp (hr.mono (by omega))) (stepN_release hw rfl hr' hlt)

theorem stepN_begun_armed (hr : NoReset (1 + s.cfg.tStartLow + s.cfg.tRelease) s) :
    stepN (1 + s.cfg.tStartLow + s.cfg.tRelease) s =
      .next (begun s .armed (1 + s.cfg.tStartLow + s.cfg.tRelease)) := by
  obtain ⟨n, hn⟩ : ∃ n, s.cfg.tRelease = n + 1 := Nat.exists_eq_add_of_le' (Config.wf_iff.1 hw).2.1
  have hr' : NoReset (n + 1) (begun s .release (1 + s.cfg.tStartLow)) :=
    NoReset.after (s := startIn .release s) (hn ▸ hr)
  have hend : (begun s .release (1 + s.cfg.tStartLow)).hcnt + n + 1 = s.cfg.tRelease := by simp [begun, hn]
  have hrun := stepN_trans (stepN_begun_release hw hq hp (hr.mono (by omega))) (stepN_release_end hw rfl hr' hend)
  rw [hn, hrun]
  exact congrArg _ (State.after_after (startIn .armed s) (1 + s.cfg.tStartLow) (n + 1))

end

/-- Settles O22: BEGIN, the two phases of the handshake tick by tick, and then a wait in ARMED. -/
theorem handshakeTimeline : Obligations.HandshakeTimeline := by
  refine ⟨fun s hw hq hp hr => ⟨fun j hj hj' => ?_, fun j hj hj' => ?_, fun m hr' hquiet => ?_⟩, rfl⟩
  · obtain ⟨n, rfl⟩ := Nat.exists_eq_add_of_le hj
    refine ⟨_, stepN_begun_startLow hw hq hp (hr.mono (by omega)) (by omega), rfl, ?_, rfl, rfl⟩
    simp [State.phaseCounted, begun]
  · obtain ⟨n, rfl⟩ := Nat.exists_eq_add_of_le hj
    rw [Nat.add_comm _ 1] at *
    refine ⟨_, stepN_begun_releaseCounted hw hq hp (hr.mono (by omega)) (by omega), rfl, ?_, rfl, rfl⟩
    simp only [State.phaseCounted, begun, State.after_hcnt, startIn_hcnt]
    omega
  · rw [show s.cfg.tStartLow + s.cfg.tRelease + 1 = 1 + s.cfg.tStartLow + s.cfg.tRelease by omega] at hr' hquiet ⊢
    have hshift : ∀ j, (begun s .armed (1 + s.cfg.tStartLow + s.cfg.tRelease)).inputAt j =
        s.inputAt (1 + s.cfg.tStartLow + s.cfg.tRelease + j) := inputAt_after (startIn .armed s) _
    have hwait := stepN_waiting (s := begun s .armed (1 + s.cfg.tStartLow + s.cfg.tRelease)) (n := m) hw rfl
      (NoReset.after (s := startIn .armed s) hr') (fun j hj => by simpa only [Presents, hshift] using (hquiet j hj).1)
      (fun _ j hj => by simpa only [Presents, hshift] using (hquiet j hj).2)
    exact ⟨_, stepN_trans (stepN_begun_armed hw hq hp (hr'.mono (by omega))) hwait, rfl, rfl⟩

end Sys2Proof.Machine
end

section
/-! Measurements over many ticks: the samples of a pulse counted up to its end or to the timeout, and the line that never
changes. -/

namespace Sys2Proof.Machine

/-! ### Samples at the target level -/

/-- `n` samples of a pulse have been counted. -/
def State.samplesCounted (s : State) (n : Nat) : State := State.after { s with pcnt := s.pcnt + n } n

section
variable {s : State} {q : SeqState} {l : Bool} {n : Nat} (hw : s.cfg.wf = true) (hq : s.seq = q)
  (ht : q.target = some l) (hl : LineHolds l 0 n s)
include hw hq ht hl

theorem stepN_samples (hr : NoReset n s) (hp : s.pcnt + n < s.cfg.tTimeout) :
    stepN n s = .next (s.samplesCounted n) := by
  induction n with
  | zero => simp [State.samplesCounted]
  | succ n ih =>
    have hline : (s.samplesCounted n).line = l := by
      rw [State.line, State.samplesCounted, inputs_after]
      exact hl n (by omega) (Nat.zero_le n)
    have hnot : (s.samplesCounted n).pcnt + 1 ≠ s.cfg.tTimeout := by
      simp only [State.samplesCounted, State.after_pcnt]
      omega
    refine stepN_snoc (ih (fun j hj => hl j (by omega)) (hr.mono (by omega)) (by omega)) ?_
    rw [step_of_sample (s := s.samplesCounted n) hw (NoReset.rst_after hr) hq ht hline hnot]
    exact congrArg _ (State.after_advance { s with pcnt := s.pcnt + (n + 1) } n)

/-- The sample that reaches the timeout is the last one (R162). -/
theorem stepN_timeout (hr : NoReset n s) (hn : 1 ≤ n) (hp : s.pcnt + n = s.cfg.tTimeout) :
    stepN n s = .next (State.after { s with pcnt := s.cfg.tTimeout, err := q.timeoutKind, seq := .done } n) := by
  obtain ⟨m, rfl⟩ := Nat.exists_eq_add_of_le' hn
  have hline : (s.samplesCounted m).line = l := by
    rw [State.line, State.samplesCounted, inputs_after]
    exact hl m (by omega) (Nat.zero_le m)
  refine stepN_snoc (stepN_samples hw hq ht (fun j hj => hl j (by omega)) (hr.mono (by omega)) (by omega)) ?_
  rw [step_of_timeout (s := s.samplesCounted m) hw (NoReset.rst_after hr) hq ht hline hp]
  exact congrArg _ (State.after_advance { s with pcnt := s.cfg.tTimeout, err := q.timeoutKind, seq := .done } m)

/-- The sample after the pulse ends it (R163). -/
theorem stepN_edge (hr : NoReset (n + 1) s) (hp : s.pcnt + n < s.cfg.tTimeout) (he : (s.inputAt n).line = !l) :
    stepN (n + 1) s = .next (q.atEdge (s.samplesCounted n)).advance := by
  have hline : (s.samplesCounted n).line = !l := by
    rw [State.line, State.samplesCounted, inputs_after]
    exact he
  refine stepN_snoc (stepN_samples hw hq ht hl (hr.mono (by omega)) hp) ?_
  rw [step_of_edge (s := s.samplesCounted n) hw (NoReset.rst_after hr) hq ht hline]

end

/-- Settles O34: both clauses are the count of the samples (`stepN_samples`), the second with the timeout as its last
sample (`stepN_timeout`). -/
theorem measurementCountsSamples : Obligations.MeasurementCountsSamples := by
  intro s l n hw ht hr hl
  exact ⟨fun hp => ⟨_, stepN_samples hw rfl ht hl hr hp, rfl, rfl, rfl, rfl, rfl, rfl⟩,
    fun hn hp => ⟨_, stepN_timeout hw rfl ht hl hr hn hp, rfl, rfl, rfl, rfl, rfl, rfl⟩⟩

/-! ### A line that never changes -/

/-- `t` shows the end of a decode by NoResponse. -/
def NoResponseEntered (s t : State) : Prop := t.seq = .done ∧ t.err = .noResponse ∧ t.pcnt = s.cfg.tTimeout

/-- A measurement of ACK_LOW or ACK_HIGH on a line that stays at its target level: `done_o` is 0 until the timeout. -/
theorem still_measurement {s : State} {q : SeqState} {l : Bool} {n : Nat} (hw : s.cfg.wf = true) (hq : s.seq = q)
    (hk : q.timeoutKind = .noResponse) (ht : q.target = some l) (hn : 1 ≤ n) (hp : s.pcnt + n = s.cfg.tTimeout)
    (hr : NoReset n s) (hl : LineHolds l 0 n s) :
    (∀ j, j < n → ∃ t, stepN j s = .next t ∧ (out t).doneO = false) ∧
    ∃ t, stepN n s = .next t ∧ NoResponseEntered s t := by
  refine ⟨fun j hj => ?_, _, stepN_timeout hw hq ht hl hr hn hp, rfl, hk, rfl⟩
  refine ⟨_, stepN_samples hw hq ht (fun i hi => hl i (by omega)) (hr.mono (by omega)) (by omega), ?_⟩
  have hne : q ≠ .done := SeqState.ne_done_of_measuring (SeqState.measuring_iff_target.2 ⟨l, ht⟩)
  exact decide_eq_false (by rw [State.samplesCounted, State.after_seq, hq]; exact hne)

theorem LineHolds.after {l : Bool} {a b k : Nat} {s : State} (h : LineHolds l (k + a) (k + b) s) :
    LineHolds l a b (s.after k) := by
  intro j hj hj'
  rw [inputAt_after]
  exact h (k + j) (by omega) (by omega)

/-- The first tick of a decode (R123). -/
theorem stepN_decode {s : State} (hw : s.cfg.wf = true) (hq : s.seq = .armed) (hp : Presents s 0 0b10#2)
    (hr : NoReset 1 s) : stepN 1 s = .next ((startIn .ackLow s).after 1) := by
  refine stepN_one s ?_
  rw [step_of_tick hw (hr 0 Nat.one_pos), tickEffect_of_decode (presented_eq_some.2 hp) hq, State.advance_eq_after]

/-- The first state of a decode on a line that stays low or high: on a high line ACK_HIGH is entered in its first tick,
with one sample counted. -/
theorem still_ackLow {s : State} {l : Bool} (hw : s.cfg.wf = true) (hq : s.seq = .ackLow) (hp : s.pcnt = 0)
    (hr : NoReset s.cfg.tTimeout s) (hl : LineHolds l 0 s.cfg.tTimeout s) :
    (∀ j, j < s.cfg.tTimeout → ∃ t, stepN j s = .next t ∧ (out t).doneO = false) ∧
    ∃ t, stepN s.cfg.tTimeout s = .next t ∧ NoResponseEntered s t := by
  obtain ⟨-, -, -, hT⟩ := Config.wf_iff.1 hw
  obtain ⟨n, hn⟩ : ∃ n, s.cfg.tTimeout = n + 2 := Nat.exists_eq_add_of_le' (by omega)
  cases l with
  | false => exact still_measurement hw hq rfl rfl (by omega) (by omega) hr hl
  | true =>
    have hedge : stepN 1 s = .next (State.after (chainTo .ackHigh s) 1) := by
      rw [← State.advance_eq_after]
      exact stepN_one s (step_of_edge hw (hr 0 (by omega)) hq rfl (hl 0 (by omega) le_rfl))
    obtain ⟨hquiet, t, hrun, ht⟩ := still_measurement (s := State.after (chainTo .ackHigh s) 1) (q := .ackHigh)
      (n := n + 1) hw rfl rfl rfl (by omega) (by simp; omega)
      (NoReset.after (s := chainTo .ackHigh s) (hr.mono (by omega)))
      (LineHolds.after (s := chainTo .ackHigh s) fun j hj _ => hl j (by omega) (by omega))
    refine ⟨fun j hj => ?_, t, ?_, ht⟩
    · cases j with
      | zero => exact ⟨s, rfl, decide_eq_false (by simp [hq])⟩
      | succ j =>
        obtain ⟨u, hu, hdone⟩ := hquiet j (by omega)
        rw [Nat.add_comm j 1]
        exact ⟨u, stepN_trans hedge hu, hdone⟩
    · rw [show s.cfg.tTimeout = 1 + (n + 1) by omega]
      exact stepN_trans hedge hrun

/-- Settles O36: one tick to ACK_LOW, then the still line of `still_ackLow`. -/
theorem stillLineGivesNoResponse : Obligations.StillLineGivesNoResponse := by
  intro s l hw hq hp hr hl
  have hstart := stepN_decode hw hq hp (hr.mono (by omega))
  obtain ⟨hquiet, t, hrun, hdone, herr, hpcnt⟩ := still_ackLow (s := (startIn .ackLow s).after 1) (l := l) hw rfl rfl
    (NoReset.after (s := startIn .ackLow s) (hr.mono (by simp; omega)))
    (LineHolds.after (s := startIn .ackLow s) fun j hj hj' => hl j (by simp at hj; omega) hj')
  refine ⟨fun j hj hj' => ?_, t, ?_, hdone, herr, hpcnt⟩
  · obtain ⟨i, rfl⟩ := Nat.exists_eq_add_of_le hj
    obtain ⟨u, hu, hnot⟩ := hquiet i (by simp; omega)
    exact ⟨u, stepN_trans hstart hu, hnot⟩
  · rw [Nat.add_comm]
    exact stepN_trans hstart hrun

end Sys2Proof.Machine
end

section
/-! The end of a decode: the verdict on the frame, the bound on the length of a decode, and the decode as a function of the
run lengths of the line. -/

namespace Sys2Proof.Machine

/-! ### CHECKSUM and CONVERT -/

section
variable {s : State} (hw : s.cfg.wf = true) (hq : s.seq = .checksum)
include hw hq

theorem stepN_mismatch (hr : NoReset 1 s) (hsum : s.frame.sum8 ≠ s.frame.f4.toNat) :
    stepN 1 s = .next (State.after { s with err := .checksumInvalid, seq := .done } 1) := by
  refine stepN_one s ?_
  rw [step_of_busy hw (hr 0 Nat.one_pos) hq rfl, ownStep, checkSum_of_mismatch hsum, State.advance_eq_after]

theorem stepN_match (hr : NoReset 1 s) (hsum : s.frame.sum8 = s.frame.f4.toNat) :
    stepN 1 s = .next (State.after { s with seq := .convert } 1) := by
  refine stepN_one s ?_
  rw [step_of_busy hw (hr 0 Nat.one_pos) hq rfl, ownStep, checkSum_of_match hsum, State.advance_eq_after]

variable (hr : NoReset 2 s) (hsum : s.frame.sum8 = s.frame.f4.toNat)
include hr hsum

theorem stepN_outOfRange (hhum : 1000 < s.frame.humRaw) :
    stepN 2 s = .next (State.after { s with err := .outOfRange, seq := .done } 2) := by
  refine stepN_snoc (stepN_match hw hq (hr.mono (by omega)) hsum) ?_
  rw [step_of_busy (s := State.after { s with seq := .convert } 1) (q := .convert) hw (NoReset.rst_after hr) rfl rfl,
    ownStep,
    checkRange_of_tooHigh (s := State.after { s with seq := .convert } 1) hhum]
  exact congrArg _ (State.after_advance { s with err := .outOfRange, seq := .done } 1)

theorem stepN_inRange (hhum : s.frame.humRaw ≤ 1000) :
    stepN 2 s = .next (State.after { s with seq := .done } 2) := by
  refine stepN_snoc (stepN_match hw hq (hr.mono (by omega)) hsum) ?_
  rw [step_of_busy (s := State.after { s with seq := .convert } 1) (q := .convert) hw (NoReset.rst_after hr) rfl rfl,
    ownStep,
    checkRange_of_inRange (s := State.after { s with seq := .convert } 1) hhum]
  exact congrArg _ (State.after_advance { s with seq := .done } 1)

end

/-- Settles O41: a mismatch ends in CHECKSUM; a match leaves the verdict to CONVERT, and the invariant has `ERR` clear. -/
theorem checksumBeforeBound : Obligations.ChecksumBeforeBound := by
  intro s hinv hq hr
  obtain ⟨hw, ⟨herr, -⟩, -⟩ := hinv
  have hnone : s.err = .none := by
    by_contra hne
    simpa [hq] using herr hne
  exact ⟨fun hsum => ⟨_, stepN_mismatch hw hq (hr.mono (by omega)) hsum, rfl, rfl⟩,
    fun hsum hhum => ⟨_, stepN_outOfRange hw hq hr hsum hhum, rfl, rfl, rfl⟩,
    fun hsum hhum => ⟨_, stepN_inRange hw hq hr hsum hhum, rfl, hnone, rfl⟩⟩

/-! ### Reaching DONE -/

/-- Within `n` ticks of `s` the block is in DONE, in a state that meets `P`. -/
def ReachesDone (n : Nat) (P : State → Prop) (s : State) : Prop :=
  ∃ k t, k ≤ n ∧ stepN k s = .next t ∧ t.seq = .done ∧ P t

section
variable {s u : State} {P : State → Prop} {k n m : Nat}

theorem reachesDone_of_stepN (h : stepN n s = .next u) (hq : u.seq = .done) (hP : P u) : ReachesDone n P s :=
  ⟨n, u, le_rfl, h, hq, hP⟩

theorem ReachesDone.mono {Q : State → Prop} (h : ReachesDone n P s) (hle : n ≤ m) (hPQ : ∀ t, P t → Q t) :
    ReachesDone m Q s := by
  obtain ⟨k, t, hk, hrun, hq, hP⟩ := h
  exact ⟨k, t, hk.trans hle, hrun, hq, hPQ t hP⟩

theorem ReachesDone.of_step (h : ReachesDone n P u) (hstep : step s = .next u) : ReachesDone (n + 1) P s := by
  obtain ⟨j, t, hj, hrest, hq, hP⟩ := h
  exact ⟨j + 1, t, by omega, (stepN_succ j hstep).trans hrest, hq, hP⟩

theorem ReachesDone.of_stepN (h : ReachesDone n P u) (hrun : stepN k s = .next u) : ReachesDone (k + n) P s := by
  obtain ⟨j, t, hj, hrest, hq, hP⟩ := h
  exact ⟨k + j, t, by omega, stepN_trans hrun hrest, hq, hP⟩

end

/-- R222: a whole frame gets its verdict within two ticks. -/
theorem reachesDone_of_checksum {s : State} (hw : s.cfg.wf = true) (hq : s.seq = .checksum) (he : s.err = .none)
    (hr : NoReset 2 s) : ReachesDone 2 (fun t => t.frame = s.frame ∧ t.err = verdict s.frame) s := by
  by_cases hsum : s.frame.sum8 = s.frame.f4.toNat
  · by_cases hhum : 1000 < s.frame.humRaw
    · exact reachesDone_of_stepN (stepN_outOfRange hw hq hr hsum hhum) rfl ⟨rfl, by simp [verdict, hsum, hhum]⟩
    · exact reachesDone_of_stepN (stepN_inRange hw hq hr hsum (by omega)) rfl
        ⟨rfl, by simp [verdict, hsum, hhum, he]⟩
  · exact (reachesDone_of_stepN (P := fun t => t.frame = s.frame ∧ t.err = verdict s.frame)
      (stepN_mismatch hw hq (hr.mono (by omega)) hsum) rfl ⟨rfl, by simp [verdict, hsum]⟩).mono (by omega) fun _ h => h

/-! ### The length of a decode -/

/-- Every frame bit below arrival index `n` is 1. -/
abbrev Frame.OnesBelow (f : Frame) (n : Nat) : Prop := ∀ j, j < n → f.bit j = true

theorem Frame.byte_of_ones {f : Frame} (h : f.OnesBelow 40) {i : Nat} (hi : i < 5) : f.byte i = 0xFF#8 := by
  refine BitVec.eq_of_getLsbD_eq fun r hr => ?_
  have hbit := h (8 * i + (7 - r)) (by omega)
  rw [Frame.bit, show (8 * i + (7 - r)) / 8 = i by omega, show 7 - (8 * i + (7 - r)) % 8 = r by omega] at hbit
  rw [hbit, show 0xFF#8 = BitVec.allOnes 8 from rfl, BitVec.getLsbD_allOnes, decide_eq_true hr]

/-- R275: four bytes `0xFF` sum to `0xFC`, which is not the fifth. -/
theorem Frame.mismatch_of_ones {f : Frame} (h : f.OnesBelow 40) : f.sum8 ≠ f.f4.toNat := by
  have h0 : f.f0 = 0xFF#8 := byte_of_ones h (i := 0) (by omega)
  have h1 : f.f1 = 0xFF#8 := byte_of_ones h (i := 1) (by omega)
  have h2 : f.f2 = 0xFF#8 := byte_of_ones h (i := 2) (by omega)
  have h3 : f.f3 = 0xFF#8 := byte_of_ones h (i := 3) (by omega)
  have h4 : f.f4 = 0xFF#8 := byte_of_ones h (i := 4) (by omega)
  rw [Frame.sum8, h0, h1, h2, h3, h4]
  decide

/-- The ticks to allow for CHECKSUM and CONVERT when the bits below `n` are decided: while all of them are 1, the frame
may become all ones, which CHECKSUM rejects; a 0 was a pulse at least one sample short of the longest. -/
def validationTicks (f : Frame) (n : Nat) : Nat := if f.OnesBelow n then 1 else 2

theorem reachesDone_validation {s : State} (hw : s.cfg.wf = true) (hq : s.seq = .checksum) (he : s.err = .none)
    (hr : NoReset (validationTicks s.frame 40) s) :
    ReachesDone (validationTicks s.frame 40) (fun _ => True) s := by
  unfold validationTicks at hr ⊢
  split at hr
  · next hones =>
    rw [if_pos hones]
    exact reachesDone_of_stepN (stepN_mismatch hw hq hr (Frame.mismatch_of_ones hones)) rfl trivial
  · next hones =>
    rw [if_neg hones]
    exact (reachesDone_of_checksum hw hq he hr).mono le_rfl fun _ _ => trivial

/-- The measurements to come after the one that is running. -/
def runsToCome (s : State) : Nat :=
  match s.seq with
  | .ackLow => 81
  | .ackHigh => 80
  | .bitLow => 79 - 2 * s.idx
  | .bitHigh => 78 - 2 * s.idx
  | .idle | .startLow | .release | .armed | .checksum | .convert | .done => 0

/-- A bound on the ticks from a measurement state to DONE: the running measurement up to its timeout, each measurement to
come with its first sample already counted, and the validation. -/
def ticksToDone (s : State) : Nat :=
  (s.cfg.tTimeout - s.pcnt) + runsToCome s * (s.cfg.tTimeout - 1) + validationTicks s.frame s.idx

/-- The bits decided so far are all 1 after the decision exactly when they were and the pulse is long. -/
theorem onesBelow_decidedFrame {s : State} (hi : s.idx < 40) (hz : s.frame.ZeroFrom s.idx) :
    (decidedFrame s).OnesBelow (s.idx + 1) ↔ s.frame.OnesBelow s.idx ∧ s.cfg.tThresh < s.pcnt := by
  have hzero : s.frame.bit s.idx = false := hz s.idx hi le_rfl
  simp only [Frame.OnesBelow, decidedFrame_bit hi, Nat.forall_lt_succ_right, hzero]
  refine and_congr (forall₂_congr fun j hj => ?_) (by simp)
  simp [hj.ne]

/-- The decision of a pulse below the timeout gains a tick: a long pulse needs one more sample to end, and a short one ends
at least two samples before the timeout (R6). -/
theorem validationTicks_decidedFrame {s : State} (hinv : Inv s) (hq : s.seq = .bitHigh) :
    validationTicks (decidedFrame s) (s.idx + 1) <
      (s.cfg.tTimeout - s.pcnt) + validationTicks s.frame s.idx := by
  obtain ⟨hw, hfits⟩ := inv_iff.1 hinv
  obtain ⟨-, -, -, hT⟩ := Config.wf_iff.1 hw
  simp only [StateFits, hq] at hfits
  obtain ⟨-, -, hp, hi, hz, -⟩ := hfits
  have hiff := onesBelow_decidedFrame (show s.idx < 40 by omega) hz
  unfold validationTicks
  by_cases hones : s.frame.OnesBelow s.idx
  · by_cases hlong : s.cfg.tThresh < s.pcnt
    · rw [if_pos (hiff.2 ⟨hones, hlong⟩), if_pos hones]
      omega
    · rw [if_neg fun h => hlong (hiff.1 h).2, if_pos hones]
      omega
  · rw [if_neg fun h => hones (hiff.1 h).1, if_neg hones]
    omega

theorem ticks_lt_of_next_run {limit p r v v' : Nat} (hv : v' < (limit - p) + v) :
    (limit - 1) + r * (limit - 1) + v' < (limit - p) + (r + 1) * (limit - 1) + v := by
  rw [Nat.succ_mul]
  omega

theorem Inv.pcnt_lt {s : State} (hinv : Inv s) (hm : s.seq.measuring = true) : s.pcnt < s.cfg.tTimeout :=
  (inv_iff.1 hinv).2.pcnt_lt hm

/-- The end of a pulse starts another measurement, within the bound less a tick, or stores the last bit. -/
theorem atEdge_next_run_or_last {s : State} (hinv : Inv s) (hm : s.seq.measuring = true) :
    ((s.seq.atEdge s).seq.measuring = true ∧ ticksToDone (s.seq.atEdge s) < ticksToDone s) ∨
    (s.seq = .bitHigh ∧ s.idx = 39) := by
  have hp := hinv.pcnt_lt hm
  have hkept : validationTicks s.frame s.idx < (s.cfg.tTimeout - s.pcnt) + validationTicks s.frame s.idx := by omega
  have hrules := hinv
  obtain ⟨-, ⟨-, -, hi, -, hack, -⟩, -⟩ := hrules
  rcases s.seq.measuring_iff.1 hm with hq | hq | hq | hq
  · have hlt := ticks_lt_of_next_run (r := 80) hkept
    exact .inl (by simpa [ticksToDone, runsToCome, hq, SeqState.atEdge, SeqState.measuring] using hlt)
  · have hidx : s.idx = 0 := (hack (.inr hq)).1
    have hlt := ticks_lt_of_next_run (r := 79) hkept
    exact .inl (by simpa [ticksToDone, runsToCome, hq, SeqState.atEdge, SeqState.measuring, hidx] using hlt)
  · have hlt := ticks_lt_of_next_run (r := 78 - 2 * s.idx) hkept
    rw [show 78 - 2 * s.idx + 1 = 79 - 2 * s.idx by omega] at hlt
    exact .inl (by simpa [ticksToDone, runsToCome, hq, SeqState.atEdge, SeqState.measuring] using hlt)
  · by_cases hlast : s.idx = 39
    · exact .inr ⟨hq, hlast⟩
    · have hlt := ticks_lt_of_next_run (r := 79 - 2 * (s.idx + 1)) (validationTicks_decidedFrame hinv hq)
      rw [show 79 - 2 * (s.idx + 1) + 1 = 78 - 2 * s.idx by omega] at hlt
      exact .inl (by simpa [ticksToDone, runsToCome, hq, SeqState.atEdge, SeqState.measuring,
        storeBit_of_not_last hlast] using hlt)

/-- Induction on the bound: a sample, or the start of another measurement, uses up a tick of it; a timeout is the end; the
last bit leaves the validation. -/
theorem reachesDone_of_measuring {s : State} {n : Nat} (hinv : Inv s) (hm : s.seq.measuring = true)
    (hn : ticksToDone s ≤ n) (hr : NoReset n s) : ReachesDone n (fun _ => True) s := by
  induction n generalizing s with
  | zero =>
    have hp := hinv.pcnt_lt hm
    unfold ticksToDone at hn
    omega
  | succ n ih =>
    obtain ⟨hw, hfits⟩ := inv_iff.1 hinv
    have hp := hinv.pcnt_lt hm
    have hstep := step_of_busy hw (hr 0 n.succ_pos) rfl (SeqState.holding_of_measuring hm)
    have hinv' := invIsKeptByEveryStep _ _ hinv hstep
    have hr' := hr.of_step hstep
    obtain ⟨ht, hs⟩ | hs | hs := ownStep_measuring_cases hm <;> rw [hs] at hstep hinv' hr'
    · have hless : ticksToDone { s with pcnt := s.pcnt + 1 } ≤ n := by
        simp only [ticksToDone, runsToCome] at hn ⊢
        omega
      exact (ih hinv' hm hless hr').of_step hstep
    · exact ⟨1, _, by omega, stepN_one s hstep, rfl, trivial⟩
    · obtain ⟨hm', hless⟩ | ⟨hq, hlast⟩ := atEdge_next_run_or_last hinv hm
      · exact (ih hinv' hm' (show ticksToDone (s.seq.atEdge s) ≤ n by omega) hr').of_step hstep
      · have hgain := validationTicks_decidedFrame hinv hq
        have hle : validationTicks (decidedFrame s) 40 ≤ n := by
          simp only [ticksToDone, runsToCome, hq, hlast, Nat.reduceAdd] at hn hgain
          omega
        rw [hq, SeqState.atEdge, storeBit_of_last hlast] at hstep hr'
        have hdone := reachesDone_validation
          (s := State.advance { s with frame := decidedFrame s, seq := .checksum, pcnt := 0 }) hw rfl
          (hfits.err_eq_none hm :) (hr'.mono hle)
        exact (hdone.mono hle fun _ h => h).of_step hstep

/-- Settles O38: one tick to ACK_LOW, then the bound of its state: `T_TIMEOUT + 81 * (T_TIMEOUT - 1) + 1`. -/
theorem everyDecodeEnds : Obligations.EveryDecodeEnds := by
  intro s hw hq hp hr
  obtain ⟨-, -, -, hT⟩ := Config.wf_iff.1 hw
  have hones : validationTicks frameClear 0 = 1 := if_pos fun j hj => absurd hj (Nat.not_lt_zero j)
  have hbound : ticksToDone ((startIn .ackLow s).after 1) = 82 * s.cfg.tTimeout - 80 := by
    simp only [ticksToDone, runsToCome, State.after_seq, State.after_cfg, State.after_pcnt, State.after_frame,
      State.after_idx, startIn_seq, startIn_cfg, startIn_pcnt, startIn_frame, startIn_idx, hones]
    omega
  have hsum : 1 + (82 * s.cfg.tTimeout - 80) = 82 * s.cfg.tTimeout - 79 := by omega
  rw [← hsum] at hr ⊢
  obtain ⟨k, t, hk, hrun, hdone, -⟩ := (reachesDone_of_measuring (s := (startIn .ackLow s).after 1)
    (inv_iff.2 ⟨hw, stateFits_ackLow hw⟩) rfl hbound.le (NoReset.after (s := startIn .ackLow s) hr)).of_stepN
    (stepN_decode hw hq hp (hr.mono (by omega)))
  exact ⟨k, t, hk, hrun, hdone⟩

end Sys2Proof.Machine
end

section
/-! The decode as a function of the run lengths of the line (R189). -/

namespace Sys2Proof.Machine

/-! ### A line that shows a list of samples -/

theorem inputAt_of_stepN {s t : State} {k : Nat} (h : stepN k s = .next t) (j : Nat) :
    t.inputAt j = s.inputAt (k + j) := by
  induction k generalizing s with
  | zero => cases h; rw [Nat.zero_add]
  | succ k ih =>
    obtain ⟨u, hu, hrest⟩ := step_of_stepN_succ h
    rw [ih hrest, inputAt_of_step hu]
    congr 1
    omega

/-- The line shows the samples of `L` from this tick on, with no reset up to the two ticks of the validation after them. -/
def Sees (L : List Bool) (s : State) : Prop :=
  (∀ j, j < L.length → some (s.inputAt j).line = L[j]?) ∧ NoReset (L.length + 2) s

theorem Sees.of_stepN {first rest : List Bool} {s t : State} (hS : Sees (first ++ rest) s)
    (h : stepN first.length s = .next t) : Sees rest t := by
  obtain ⟨hline, hr⟩ := hS
  rw [List.length_append] at hline hr
  refine ⟨fun j hj => ?_, fun j hj => ?_⟩ <;> rw [inputAt_of_stepN h]
  · rw [hline _ (by omega), List.getElem?_append_right (by omega), Nat.add_sub_cancel_left]
  · exact hr _ (by omega)

section
variable {s : State} {l b : Bool} {n : Nat} {rest : List Bool}

theorem Sees.lineHolds (hS : Sees (List.replicate n l ++ rest) s) : LineHolds l 0 n s := by
  intro j hj _
  have hj' : j < (List.replicate n l).length := by rwa [List.length_replicate]
  have hsample := hS.1 j (by rw [List.length_append]; omega)
  rw [List.getElem?_append_left hj', List.getElem?_replicate_of_lt hj] at hsample
  exact Option.some.inj hsample

theorem Sees.line_after_run (hS : Sees (List.replicate n l ++ b :: rest) s) : (s.inputAt n).line = b := by
  have hsample := hS.1 n (by simp)
  rw [List.getElem?_append_right (by simp)] at hsample
  simpa using hsample

end

/-! ### One run -/

section
variable {s : State} {q : SeqState} {l : Bool} {n : Nat} {rest : List Bool} (hw : s.cfg.wf = true) (hq : s.seq = q)
  (ht : q.target = some l)
include hw hq ht

/-- A run that is too long for the measurement ends the decode. -/
theorem reachesDone_of_long_run (hS : Sees (List.replicate n l ++ rest) s) (hp : s.pcnt < s.cfg.tTimeout)
    (hlong : s.cfg.tTimeout ≤ s.pcnt + n) : ReachesDone n (fun t => t.err = q.timeoutKind) s := by
  obtain ⟨m, hm⟩ := Nat.exists_eq_add_of_le hp.le
  have hr : NoReset m s := NoReset.mono hS.2 (by simp; omega)
  have hl : LineHolds l 0 m s := fun j hj => hS.lineHolds j (by omega)
  exact ⟨m, _, by omega, stepN_timeout hw hq ht hl hr (by omega) hm.symm, rfl, rfl⟩

/-- A run that is short enough ends its measurement with the next sample. -/
theorem stepN_run (hS : Sees (List.replicate n l ++ (!l) :: rest) s) (hshort : s.pcnt + n < s.cfg.tTimeout) :
    stepN (n + 1) s = .next (q.atEdge (s.samplesCounted n)).advance ∧
    Sees rest (q.atEdge (s.samplesCounted n)).advance := by
  have hrun := stepN_edge hw hq ht hS.lineHolds (NoReset.mono hS.2 (by simp; omega)) hshort hS.line_after_run
  refine ⟨hrun, Sees.of_stepN (first := List.replicate n l ++ [!l]) (by simpa using hS) ?_⟩
  simpa using hrun

end

/-! ### The runs of the bits -/

/-- What BIT_HIGH decides on the runs of the bits, low before high. -/
def decidedBits (thresh : Nat) : List Nat → List Bool
  | _ :: hi :: more => decide (thresh < hi) :: decidedBits thresh more
  | [_] => []
  | [] => []

/-- The samples of the bits' runs after the first, which the end of the run before has counted, and the low sample that
ends the last run. -/
def bitLine (bits : List Nat) : List Bool := (runLevels false bits ++ [false]).tail

theorem runLevels_append_eq_cons {bits : List Nat} (hpos : ∀ r, r ∈ bits → 1 ≤ r) :
    runLevels false bits ++ [false] = false :: bitLine bits := by
  cases bits with
  | nil => rfl
  | cons r more =>
    obtain ⟨n, rfl⟩ := Nat.exists_eq_add_of_le' (hpos r List.mem_cons_self)
    simp [bitLine, runLevels, List.replicate_succ]

theorem bitLine_cons_cons {n m : Nat} {more : List Nat} (hpos : ∀ r, r ∈ more → 1 ≤ r) :
    bitLine ((n + 1) :: (m + 1) :: more) =
      List.replicate n false ++ true :: (List.replicate m true ++ false :: bitLine more) := by
  rw [← runLevels_append_eq_cons hpos]
  simp [bitLine, runLevels, List.replicate_succ]

/-- The end of a decode whose bits from index `n` on come from the runs `bits`, on the frame `f`. -/
def DecodedFrom (limit thresh n : Nat) (f : Frame) (bits : List Nat) (t : State) : Prop :=
  match bitTimeout limit bits with
  | some e => t.err = e
  | none => t.frame = assembled n (decidedBits thresh bits) f ∧ t.err = verdict t.frame

/-- The first state of a bit: BIT_LOW with one sample counted, and the runs of this bit and the bits after it to come. -/
structure BitStarts (bits : List Nat) (s : State) : Prop where
  wf : s.cfg.wf = true
  seq : s.seq = .bitLow
  pcnt : s.pcnt = 1
  err : s.err = .none
  idx : s.idx ≤ 39
  length : bits.length + 2 * s.idx = 80
  pos : ∀ r, r ∈ bits → 1 ≤ r
  sees : Sees (bitLine bits) s

/-- The measurement state `q`, entered from that of `s` at the end of a pulse, `n` samples from now (R164). -/
def entered (q : SeqState) (s : State) (n : Nat) : State := (chainTo q (s.samplesCounted n)).advance

section
variable (q : SeqState) (s : State) (n : Nat)

@[simp] theorem entered_idx : (entered q s n).idx = s.idx := rfl
@[simp] theorem entered_frame : (entered q s n).frame = s.frame := rfl
@[simp] theorem entered_cfg : (entered q s n).cfg = s.cfg := rfl

end

/-- The state after a bit of `n + 1` low and `m + 1` high samples, the first of them counted in `s`. -/
def bitStored (s : State) (n m : Nat) : State := (storeBit ((entered .bitHigh s n).samplesCounted m)).advance

theorem bitStored_frame (s : State) (n m : Nat) :
    (bitStored s n m).frame = if s.cfg.tThresh < m + 1 then frameSetBit s.idx s.frame else s.frame := by
  rw [bitStored, State.advance_frame, storeBit_frame, decidedFrame_eq, Nat.add_comm m 1]
  rfl

theorem bitStored_last {s : State} (n m : Nat) (h : s.idx = 39) :
    (bitStored s n m).seq = .checksum ∧ (bitStored s n m).err = s.err ∧ (bitStored s n m).cfg = s.cfg := by
  rw [bitStored, storeBit_of_last (s := (entered .bitHigh s n).samplesCounted m) h]
  exact ⟨rfl, rfl, rfl⟩

theorem bitStored_not_last {s : State} (n m : Nat) (h : s.idx ≠ 39) :
    (bitStored s n m).seq = .bitLow ∧ (bitStored s n m).pcnt = 1 ∧ (bitStored s n m).idx = s.idx + 1 ∧
    (bitStored s n m).err = s.err ∧ (bitStored s n m).cfg = s.cfg := by
  rw [bitStored, storeBit_of_not_last (s := (entered .bitHigh s n).samplesCounted m) h]
  exact ⟨rfl, rfl, rfl, rfl, rfl⟩

section
variable {s : State} {n m : Nat} {more : List Nat} (h : BitStarts ((n + 1) :: (m + 1) :: more) s)
include h

theorem BitStarts.sees_runs :
    Sees (List.replicate n false ++ true :: (List.replicate m true ++ false :: bitLine more)) s := by
  rw [← bitLine_cons_cons fun r hr => h.pos r (by simp [hr])]
  exact h.sees

theorem BitStarts.line_length :
    (bitLine ((n + 1) :: (m + 1) :: more)).length = n + 1 + (m + 1 + (bitLine more).length) := by
  rw [bitLine_cons_cons fun r hr => h.pos r (by simp [hr])]
  simp
  omega

theorem BitStarts.reachesDone_of_low (hlong : s.cfg.tTimeout ≤ n + 1) :
    ReachesDone n (fun t => t.err = .lowPulseTimeout) s := by
  obtain ⟨-, -, -, hT⟩ := Config.wf_iff.1 h.wf
  have hp := h.pcnt
  exact reachesDone_of_long_run h.wf h.seq rfl h.sees_runs (by omega) (by omega)

variable (hlo : n + 1 < s.cfg.tTimeout)
include hlo

theorem BitStarts.stepN_low : stepN (n + 1) s = .next (entered .bitHigh s n) ∧
    Sees (List.replicate m true ++ false :: bitLine more) (entered .bitHigh s n) := by
  have hp := h.pcnt
  exact stepN_run h.wf h.seq rfl h.sees_runs (by omega)

theorem BitStarts.reachesDone_of_high (hlong : s.cfg.tTimeout ≤ m + 1) :
    ReachesDone (n + 1 + m) (fun t => t.err = .highPulseTimeout) s := by
  obtain ⟨-, -, -, hT⟩ := Config.wf_iff.1 h.wf
  obtain ⟨hrun, hsees⟩ := h.stepN_low hlo
  exact (reachesDone_of_long_run (s := entered .bitHigh s n) h.wf rfl rfl hsees
    (show 1 < s.cfg.tTimeout by omega) (show s.cfg.tTimeout ≤ 1 + m by omega)).of_stepN hrun

theorem BitStarts.stepN_bit (hhi : m + 1 < s.cfg.tTimeout) :
    stepN (n + 1 + (m + 1)) s = .next (bitStored s n m) ∧ Sees (bitLine more) (bitStored s n m) := by
  obtain ⟨hrun, hsees⟩ := h.stepN_low hlo
  obtain ⟨hrun', hsees'⟩ := stepN_run (s := entered .bitHigh s n) h.wf rfl rfl hsees (show 1 + m < s.cfg.tTimeout by omega)
  exact ⟨stepN_trans hrun hrun', hsees'⟩

end

/-- A bit whose two runs are short enough is decided on its high run and leaves the rest of the bits. -/
theorem decodedFrom_cons_cons {limit thresh n lo hi : Nat} {f : Frame} {more : List Nat}
    (hlo : ¬limit ≤ lo) (hhi : ¬limit ≤ hi) :
    DecodedFrom limit thresh n f (lo :: hi :: more) =
      DecodedFrom limit thresh (n + 1) (if thresh < hi then frameSetBit n f else f) more := by
  funext t
  simp only [DecodedFrom, bitTimeout, if_neg hlo, if_neg hhi, decidedBits, assembled, decide_eq_true_eq]

/-- R189 from the first bit on, along the branches of `bitTimeout`: a run that is too long ends the decode, a bit is stored
and the next one starts, and the last bit leaves the verdict on the frame. -/
theorem reachesDone_of_bits {s : State} {bits : List Nat} {limit : Nat} (h : BitStarts bits s)
    (hlimit : s.cfg.tTimeout = limit) :
    ReachesDone ((bitLine bits).length + 2) (DecodedFrom limit s.cfg.tThresh s.idx s.frame bits) s := by
  induction bits using bitTimeout.induct limit generalizing s with
  | case1 lo hi more hlong =>
    obtain ⟨n, rfl⟩ := Nat.exists_eq_add_of_le' (h.pos lo (by simp))
    obtain ⟨m, rfl⟩ := Nat.exists_eq_add_of_le' (h.pos hi (by simp))
    refine (h.reachesDone_of_low (hlimit ▸ hlong)).mono (by rw [h.line_length]; omega) fun t ht => ?_
    simpa only [DecodedFrom, bitTimeout, if_pos hlong] using ht
  | case2 lo hi more hlo hlong =>
    obtain ⟨n, rfl⟩ := Nat.exists_eq_add_of_le' (h.pos lo (by simp))
    obtain ⟨m, rfl⟩ := Nat.exists_eq_add_of_le' (h.pos hi (by simp))
    refine (h.reachesDone_of_high (by omega) (hlimit ▸ hlong)).mono (by rw [h.line_length]; omega) fun t ht => ?_
    simpa only [DecodedFrom, bitTimeout, if_neg hlo, if_pos hlong] using ht
  | case3 lo hi more hlo hhi ih =>
    obtain ⟨n, rfl⟩ := Nat.exists_eq_add_of_le' (h.pos lo (by simp))
    obtain ⟨m, rfl⟩ := Nat.exists_eq_add_of_le' (h.pos hi (by simp))
    obtain ⟨hrun, hsees⟩ := h.stepN_bit (by omega) (by omega)
    have hlen : more.length + 2 * (s.idx + 1) = 80 := by
      have := h.length
      simp only [List.length_cons] at this
      omega
    rw [decodedFrom_cons_cons hlo hhi, ← bitStored_frame s n m, h.line_length,
      show n + 1 + (m + 1 + (bitLine more).length) + 2 = n + 1 + (m + 1) + ((bitLine more).length + 2) by omega]
    by_cases hlast : s.idx = 39
    · obtain rfl : more = [] := List.length_eq_zero_iff.1 (by omega)
      obtain ⟨hq, he, hcfg⟩ := bitStored_last n m hlast
      have hdone := reachesDone_of_checksum (hcfg ▸ h.wf) hq (he.trans h.err) hsees.2
      exact (hdone.mono le_rfl fun t ht => ⟨ht.1, ht.1 ▸ ht.2⟩).of_stepN hrun
    · obtain ⟨hq, hp, hi, he, hcfg⟩ := bitStored_not_last n m hlast
      have hidx := h.idx
      have hstart : BitStarts more (bitStored s n m) :=
        { wf := hcfg ▸ h.wf, seq := hq, pcnt := hp, err := he.trans h.err, idx := by omega, length := by omega,
          pos := fun r hr => h.pos r (by simp [hr]), sees := hsees }
      have hdone := ih hstart (hcfg ▸ hlimit)
      rw [hcfg, hi] at hdone
      exact hdone.of_stepN hrun
  | case4 bits hshort =>
    have hidx := h.idx
    have hlen := h.length
    match bits with
    | [] => simp at hlen; omega
    | [_] => simp at hlen; omega
    | lo :: hi :: more => exact absurd rfl (hshort lo hi more)

/-! ### The whole decode -/

/-- R189: bit `i` is decided on the high run with the odd index `2 * i + 1` among the runs of the bits. -/
theorem decidedBits_getD (thresh : Nat) (bits : List Nat) (i : Nat) :
    (decidedBits thresh bits).getD i false = decide (thresh < bits.getD (2 * i + 1) 0) := by
  induction bits using decidedBits.induct generalizing i with
  | case1 lo hi more ih =>
    cases i with
    | zero => simp [decidedBits]
    | succ i => simpa [decidedBits, Nat.mul_add] using ih i
  | case2 r => simp [decidedBits]
  | case3 => simp [decidedBits]

theorem length_decidedBits (thresh : Nat) (bits : List Nat) : (decidedBits thresh bits).length = bits.length / 2 := by
  induction bits using decidedBits.induct with
  | case1 lo hi more ih =>
    simp only [decidedBits, List.length_cons, ih]
    omega
  | case2 r => simp [decidedBits]
  | case3 => simp [decidedBits]

theorem decodeLine_cons {r0 m : Nat} {bits : List Nat} (hpos : ∀ r, r ∈ bits → 1 ≤ r) :
    decodeLine r0 ((m + 1) :: bits) =
      List.replicate r0 false ++ true :: (List.replicate m true ++ false :: bitLine bits) := by
  rw [← runLevels_append_eq_cons hpos]
  simp [decodeLine, runLevels, List.replicate_succ]

/-- The end of a whole decode: the failure of the first run that is too long, or the frame of the bits' runs with its
verdict. -/
def DecodedFromRuns (limit thresh r0 r1 : Nat) (bits : List Nat) (t : State) : Prop :=
  match runsTimeout limit r0 (r1 :: bits) with
  | some e => t.err = e
  | none => t.frame = assembled 0 (decidedBits thresh bits) frameClear ∧ t.err = verdict t.frame

section
variable {limit thresh r0 r1 : Nat} {bits : List Nat} {t : State}

theorem decodedFromRuns_of_long_ack (h : limit ≤ r0 ∨ limit ≤ r1) (ht : t.err = .noResponse) :
    DecodedFromRuns limit thresh r0 r1 bits t := by
  unfold DecodedFromRuns runsTimeout
  by_cases h0 : limit ≤ r0
  · simpa only [if_pos h0] using ht
  · simpa only [if_neg h0, if_pos (h.resolve_left h0)] using ht

theorem decodedFromRuns_of_bits (h0 : ¬limit ≤ r0) (h1 : ¬limit ≤ r1)
    (ht : DecodedFrom limit thresh 0 frameClear bits t) : DecodedFromRuns limit thresh r0 r1 bits t := by
  unfold DecodedFromRuns runsTimeout
  simpa only [if_neg h0, if_neg h1, DecodedFrom] using ht

end

/-- R189: ACK_LOW and ACK_HIGH end the decode on a run that is too long; else the bits start. -/
theorem reachesDone_of_ackLow {s : State} {r0 m : Nat} {bits : List Nat} (hw : s.cfg.wf = true) (hq : s.seq = .ackLow)
    (hp : s.pcnt = 0) (hi : s.idx = 0) (hf : s.frame = frameClear) (he : s.err = .none) (hlen : bits.length = 80)
    (hpos : ∀ r, r ∈ bits → 1 ≤ r) (hsees : Sees (decodeLine r0 ((m + 1) :: bits)) s) :
    ReachesDone ((decodeLine r0 ((m + 1) :: bits)).length + 2)
      (DecodedFromRuns s.cfg.tTimeout s.cfg.tThresh r0 (m + 1) bits) s := by
  obtain ⟨-, -, -, hT⟩ := Config.wf_iff.1 hw
  rw [decodeLine_cons hpos] at hsees ⊢
  have htotal : (List.replicate r0 false ++ true :: (List.replicate m true ++ false :: bitLine bits)).length + 2 =
      r0 + 1 + (m + 1 + ((bitLine bits).length + 2)) := by
    simp
    omega
  rw [htotal]
  by_cases h0 : s.cfg.tTimeout ≤ r0
  · exact (reachesDone_of_long_run hw hq rfl hsees (by omega) (by omega)).mono (by omega) fun t =>
      decodedFromRuns_of_long_ack (.inl h0)
  · obtain ⟨hrun, hsees'⟩ := stepN_run hw hq rfl hsees (by omega)
    refine ReachesDone.of_stepN (u := entered .ackHigh s r0) ?_ hrun
    by_cases h1 : s.cfg.tTimeout ≤ m + 1
    · exact (reachesDone_of_long_run (s := entered .ackHigh s r0) hw rfl rfl hsees'
        (show 1 < s.cfg.tTimeout by omega) (show s.cfg.tTimeout ≤ 1 + m by omega)).mono (by omega) fun t =>
        decodedFromRuns_of_long_ack (.inr h1)
    · obtain ⟨hrun', hsees''⟩ := stepN_run (s := entered .ackHigh s r0) hw rfl rfl hsees'
        (show 1 + m < s.cfg.tTimeout by omega)
      have hstart : BitStarts bits (entered .bitLow (entered .ackHigh s r0) m) :=
        { wf := hw, seq := rfl, pcnt := rfl, err := he, idx := show s.idx ≤ 39 by omega,
          length := show bits.length + 2 * s.idx = 80 by omega, pos := hpos, sees := hsees'' }
      have hdone := reachesDone_of_bits hstart rfl
      simp only [entered_cfg, entered_idx, entered_frame, hi, hf] at hdone
      exact (hdone.mono le_rfl fun t => decodedFromRuns_of_bits h0 h1).of_stepN hrun'

/-- Settles O37: the frame's bit `i` is the decision on run `2 * i + 3` (`assembled_frameClear_bit`,
`decidedBits_getD`). -/
theorem decodeIsFunctionOfRuns : Obligations.DecodeIsFunctionOfRuns := by
  intro s r0 rs hw hq _ hp hi hf he hlen hpos hr hline
  obtain ⟨r1, bits, rfl⟩ := List.exists_cons_of_length_eq_add_one hlen
  obtain ⟨m, rfl⟩ := Nat.exists_eq_add_of_le' (hpos r1 List.mem_cons_self)
  have hbits : bits.length = 80 := Nat.succ.inj hlen
  obtain ⟨k, t, hk, hrun, hdone, hresult⟩ := reachesDone_of_ackLow hw hq hp hi hf he hbits
    (fun r hr => hpos r (List.mem_cons_of_mem _ hr)) ⟨hline, hr⟩
  refine ⟨k, t, hk, hrun, hdone, ?_⟩
  unfold DecodedFromRuns at hresult
  cases hruns : runsTimeout s.cfg.tTimeout r0 ((m + 1) :: bits) with
  | some e => simpa only [hruns] using hresult
  | none =>
    simp only [hruns] at hresult
    obtain ⟨hframe, herr⟩ := hresult
    refine ⟨fun i hi => ?_, herr⟩
    rw [hframe, assembled_frameClear_bit (by rw [length_decidedBits]; omega), decidedBits_getD, List.getD_cons_succ]

end Sys2Proof.Machine
end
